-- ==== Sys2Proof/Word.lean ====
section
/-! DEFINITION. The value types of the core: every value is an unsigned bit vector of stated width (R12). -/

namespace Sys2Proof

/-- One byte of a script as the model stores it (log 2). -/
abbrev Byte := BitVec 8

/-- The levels of the three Hall lines: bit 0 = A, bit 1 = B, bit 2 = C (R26). -/
abbrev HallLevels := BitVec 3

/-- A PositionIndex: bit 0 = A, bit 1 = B, bit 2 = C (R61). Three bits, so no index outside 0 to 7 exists (R138). -/
abbrev PosIndex := BitVec 3

/-- A logical SwitchPattern: one switch-enabled flag per switch, laid out as R63 says. -/
abbrev Pattern := BitVec 6

/-- Physical levels of the six gate-driver lines (R66). -/
abbrev Gates := BitVec 6

/-- The 9-bit snapshot word, and the hook word of the same layout (R69, R70). -/
abbrev SnapWord := BitVec 9

/-- The control vector (in_reset, pend, phase), in_reset being bit 2 (R71). -/
abbrev Ctl := BitVec 3

/-- A commutation table: 8 rows of 6 bits (R9, R25). -/
abbrev CommTable := Vector Pattern 8

end Sys2Proof
end

