-- ==== Sys2Proof/Syntax.lean ====
section
/-! DEFINITION. The instructions: one constructor per row of opcode_table.json (R79), and the names of the sensors,
phases, switches and lines (R18). -/

namespace Sys2Proof

/-- The decodable items of opcode_table.json: eight table lookups (format index) and six steps (format control).
EDGE alone has an operand, the new line vector (R72). -/
inductive Instr where
  | lookup0
  | lookup1
  | lookup2
  | lookup3
  | lookup4
  | lookup5
  | lookup6
  | lookup7
  | edge (v : HallLevels)
  | dispatchSample
  | dispatchCommit
  | snapshot
  | reset
  | release
  deriving DecidableEq, Repr

/-- The three Hall sensors (R18). A sensor and the phase of the same letter are distinct objects. -/
inductive Sensor where
  | a
  | b
  | c
  deriving DecidableEq, Repr

/-- The three motor phases, that is inverter legs (R18, R19). -/
inductive Leg where
  | a
  | b
  | c
  deriving DecidableEq, Repr

/-- The six inverter switches (R18). -/
inductive Switch where
  | ah
  | al
  | bh
  | bl
  | ch
  | cl
  deriving DecidableEq, Repr

/-- The nine lines of the core that PIN_MAP places (R10, R68). -/
inductive Line where
  | hall (s : Sensor)
  | gate (w : Switch)
  deriving DecidableEq, Repr

/-- A line of a script as R77 and R78 write it: a step, or one of the three pseudo-steps. -/
inductive ScriptLine where
  | step (i : Instr)
  | dispatch
  | hall (v : HallLevels)
  | boot
  deriving DecidableEq, Repr

end Sys2Proof
end

