-- ==== Sys2Proof/Machine/Patterns.lean ====
section
/-! DEFINITION. The combinational functions on values: PACK, the pattern and gate layouts, polarity, the table's checks
and its default contents (30_encoding.md, 40_sampler.md, 41_table.md, 42_driver.md). -/

namespace Sys2Proof.Machine

/-! ### Bit positions -/

/-- The bit of a line vector, and of an index, that belongs to a sensor (R26, R61). -/
def sensorBit : Sensor → Nat
  | .a => 0
  | .b => 1
  | .c => 2

/-- The number of a phase: A = 0, B = 1, C = 2 (R63). -/
def legNumber : Leg → Nat
  | .a => 0
  | .b => 1
  | .c => 2

/-- Bit 2p of a pattern is the high-side switch of phase p (R63). -/
def highBit (l : Leg) : Nat := 2 * legNumber l

/-- Bit 2p+1 of a pattern is the low-side switch of phase p (R63). -/
def lowBit (l : Leg) : Nat := 2 * legNumber l + 1

/-- The bit of a switch in a pattern and on the gate bus (R63, R66). -/
def switchBit : Switch → Nat
  | .ah => 0
  | .al => 1
  | .bh => 2
  | .bl => 3
  | .ch => 4
  | .cl => 5

/-- The line level that turns a switch on: high-side lines are active-low, low-side lines active-high (R66, R104). -/
def onLevel : Switch → Bool
  | .ah => false
  | .al => true
  | .bh => false
  | .bl => true
  | .ch => false
  | .cl => true

/-- The line level that turns a switch off (R66, R104). -/
def offLevel (w : Switch) : Bool := !onLevel w

def allLegs : List Leg := [.a, .b, .c]

def allSensors : List Sensor := [.a, .b, .c]

def allSwitches : List Switch := [.ah, .al, .bh, .bl, .ch, .cl]

/-! ### The index -/

/-- PACK: the line vector (c, b, a) read as the index a + 2*b + 4*c (R80). -/
def pack (v : HallLevels) : PosIndex := v

/-- A valid index is one of 1 to 6; 0 and 7 are invalid (R62). -/
def isValidIndex (i : PosIndex) : Bool := i ≠ 0#3 && i ≠ 7#3

/-! ### Patterns -/

/-- OFF, the all-off pattern (R65, R91). -/
def off : Pattern := 0#6

/-- A pattern enables the high-side switch of a phase. -/
def highOn (p : Pattern) (l : Leg) : Bool := p.getLsbD (highBit l)

/-- A pattern enables the low-side switch of a phase. -/
def lowOn (p : Pattern) (l : Leg) : Bool := p.getLsbD (lowBit l)

/-- A pattern is safe when no phase has both flags set (R64). -/
def isSafe (p : Pattern) : Bool := allLegs.all fun l => !(highOn p l && lowOn p l)

/-- A pattern is conducting when it is safe and sets exactly one high-side flag and exactly one low-side flag, on two
distinct phases (R64). -/
def isConducting (p : Pattern) : Bool :=
  isSafe p &&
    match allLegs.filter (highOn p), allLegs.filter (lowOn p) with
    | [h], [l] => decide (h ≠ l)
    | _, _ => false

/-! ### The gate lines -/

/-- POL: 1 at every high-side bit (R66). -/
def pol : Gates := 0b010101#6

/-- ENCODE(p) = p XOR POL (R101). -/
def encodeGates (p : Pattern) : Gates := p ^^^ pol

/-- DECODE(g) = g XOR POL (R102). -/
def decodeGates (g : Gates) : Pattern := g ^^^ pol

/-- SAFE = ENCODE(OFF), the gate vector that turns every switch off (R67, R103). -/
def safeGates : Gates := 0x15#6

/-- The level of a switch's line in a gate vector. -/
def gateLevel (g : Gates) (w : Switch) : Bool := g.getLsbD (switchBit w)

/-- A gate vector turns a switch on: its line has the on level of R66. -/
def switchedOn (g : Gates) (w : Switch) : Bool := gateLevel g w == onLevel w

/-- The high-side switch of a phase (R18). -/
def highSwitch : Leg → Switch
  | .a => .ah
  | .b => .bh
  | .c => .ch

/-- The low-side switch of a phase (R18). -/
def lowSwitch : Leg → Switch
  | .a => .al
  | .b => .bl
  | .c => .cl

/-- A gate vector commands shoot-through: for some phase, both lines are at their on levels (R19, R39). -/
def commandsShootThrough (g : Gates) : Bool :=
  allLegs.any fun l => switchedOn g (highSwitch l) && switchedOn g (lowSwitch l)

/-- Between two gate vectors, a phase's conducting switch is turned off and its complement on (R109, R168). -/
def swapsLeg (g g' : Gates) (l : Leg) : Bool :=
  (switchedOn g (highSwitch l) && !switchedOn g' (highSwitch l) && !switchedOn g (lowSwitch l) && switchedOn g' (lowSwitch l)) ||
  (switchedOn g (lowSwitch l) && !switchedOn g' (lowSwitch l) && !switchedOn g (highSwitch l) && switchedOn g' (highSwitch l))

/-- A commit from g to g' swaps complementary switches of some phase (R168). -/
def swapsComplements (g g' : Gates) : Bool := allLegs.any (swapsLeg g g')

/-- How many sensor lines two line vectors differ in (R100, R168). -/
def linesChanged (v v' : HallLevels) : Nat :=
  (allSensors.filter fun s => v.getLsbD (sensorBit s) != v'.getLsbD (sensorBit s)).length

/-! ### The snapshot and hook words -/

/-- The word with the index in bits 8 to 6 and the pattern in bits 5 to 0 (R69, R70). -/
def pairWord (i : PosIndex) (p : Pattern) : SnapWord := i ++ p

/-- Bits 8 to 6 of a snapshot word (R69). -/
def wordIndex (w : SnapWord) : PosIndex := w.extractLsb' 6 3

/-- Bits 5 to 0 of a snapshot word (R69). -/
def wordPattern (w : SnapWord) : Pattern := w.extractLsb' 0 6

/-! ### The table -/

/-- COMM_TABLE[i]: the index is the row number, with no offset or scaling (R72, R87). Three bits select one of eight
rows, so no read is out of range (R25). -/
def tableRow (t : CommTable) (i : PosIndex) : Pattern := t[i.toNat]'i.isLt

/-- The default table (R90, R92 to R99). Rows 2 to 6 are the spec's own choice (D2). -/
def defaultTable : CommTable :=
  #v[0b000000#6, 0b100001#6, 0b000110#6, 0b100100#6, 0b011000#6, 0b001001#6, 0b010010#6, 0b000000#6]

/-- The eight index values (R62). -/
def allIndices : List PosIndex := [0#3, 1#3, 2#3, 3#3, 4#3, 5#3, 6#3, 7#3]

/-- No-shoot-through invariant: every row is a safe pattern (R88). -/
def tableIsSafe (t : CommTable) : Bool := allIndices.all fun i => isSafe (tableRow t i)

/-- Row-class invariant: rows 1 to 6 conducting, rows 0 and 7 OFF (R89). -/
def tableIsClassed (t : CommTable) : Bool :=
  allIndices.all fun i => if isValidIndex i then isConducting (tableRow t i) else decide (tableRow t i = off)

/-- The next valid index of the forward six-step sequence 1, 5, 4, 6, 2, 3, 1 (R100); the invalid indices are not in it. -/
def forwardNext (i : PosIndex) : Option PosIndex :=
  match i.toNat with
  | 1 => some 5#3
  | 5 => some 4#3
  | 4 => some 6#3
  | 6 => some 2#3
  | 2 => some 3#3
  | 3 => some 1#3
  | _ => none

end Sys2Proof.Machine
end

