-- ==== Sys2Proof/Config.lean ====
section
/-! DEFINITION. What is fixed for a run: the implementation parameters (R10, R44), and the one free value, the schedule. -/

namespace Sys2Proof

/-- PIN_MAP: the physical pin identifier of each of the nine core lines (R10, R68). The identifiers are Nats (log 9). -/
structure PinMap where
  hallA : Nat
  hallB : Nat
  hallC : Nat
  gateAH : Nat
  gateAL : Nat
  gateBH : Nat
  gateBL : Nat
  gateCH : Nat
  gateCL : Nat
  deriving DecidableEq, Repr

/-- The implementation parameters that the source leaves open (R10). The State carries them so that a claim can quantify
over them (R44, log 7); no step changes them. -/
structure Params where
  /-- COMM_TABLE, constrained by R88 and R89. -/
  commTable : CommTable
  /-- INITIAL_DISPATCH: whether a dispatch is pending at reset release. -/
  initialDispatch : Bool
  /-- PIN_MAP, open: none by default. -/
  pinMap : Option PinMap
  deriving DecidableEq, Repr

/-- The defaults of R10. -/
def Params.default : Params :=
  { commTable := Machine.defaultTable, initialDispatch := false, pinMap := none }

/-- FREE VALUE. Which of the enabled steps fires when no script line is waiting: the spec fixes no order among them (R14,
I13), so the n-th free choice is an uninterpreted number (log 3). -/
opaque Config.schedule : Nat → Nat

end Sys2Proof
end

