-- ==== Sys2Proof/WellFormed.lean ====
section
/-! DEFINITION. Which configurations and instructions are well formed. -/

namespace Sys2Proof

/-- The pins of the nine lines, in the order of R10. -/
def PinMap.pins (m : PinMap) : List Nat :=
  [m.hallA, m.hallB, m.hallC, m.gateAH, m.gateAL, m.gateBH, m.gateBL, m.gateCH, m.gateCL]

/-- PIN_MAP is injective: no two lines share a pin (R10). -/
def PinMap.injective (m : PinMap) : Bool := decide m.pins.Nodup

/-- A configuration that may be launched: its table obeys R88 and R89 (R74, R139), and its PIN_MAP, if given, is
injective (R10, log 9). -/
def Params.wf (p : Params) : Bool :=
  Machine.tableIsSafe p.commTable && Machine.tableIsClassed p.commTable && p.pinMap.all PinMap.injective

/-- Every term of Instr is well formed: the only operand is EDGE's line vector, and its type has exactly the eight
vectors of R61, so there is no ill-formed instruction to refuse (R72, R138). -/
def Instr.wf : Instr → Bool
  | .lookup0 => true
  | .lookup1 => true
  | .lookup2 => true
  | .lookup3 => true
  | .lookup4 => true
  | .lookup5 => true
  | .lookup6 => true
  | .lookup7 => true
  | .edge _ => true
  | .dispatchSample => true
  | .dispatchCommit => true
  | .snapshot => true
  | .reset => true
  | .release => true

end Sys2Proof
end

