-- ==== Sys2Proof/Decode.lean ====
section
/-! DEFINITION. The decode map: the rows of opcode_table.json with their match and mask over three bits (R71, R79), the
decoder of a script byte, and the encoder.

The table has two formats, index and control, whose rows share the same 3-bit words (match 0b010 is LOOKUP_2's and
DISPATCH_SAMPLE's), and rows of the control format that any word matches. A script line is therefore one byte: bits 2 to
0 are the row's own three bits, or EDGE's operand, and bits 7 to 3 select the row (DESIGN CHOICE, log 2). Selector 0 is
the index format, so a bare table word reads as a LOOKUP row, the one format whose decode is a total function (R79, log 1). -/

namespace Sys2Proof

/-- The two formats of opcode_table.json (R79). -/
inductive RowFormat where
  | index
  | control
  deriving DecidableEq, Repr

/-- A row of opcode_table.json: its mnemonic, format, match and mask. -/
structure OpRow where
  mnemonic : String
  format : RowFormat
  pat : BitVec 3
  mask : BitVec 3
  deriving DecidableEq, Repr

/-- The row of an instruction, as opcode_table.json gives it. -/
def Instr.row : Instr → OpRow
  | .lookup0 => ⟨"LOOKUP_0", .index, 0b000#3, 0b111#3⟩
  | .lookup1 => ⟨"LOOKUP_1", .index, 0b001#3, 0b111#3⟩
  | .lookup2 => ⟨"LOOKUP_2", .index, 0b010#3, 0b111#3⟩
  | .lookup3 => ⟨"LOOKUP_3", .index, 0b011#3, 0b111#3⟩
  | .lookup4 => ⟨"LOOKUP_4", .index, 0b100#3, 0b111#3⟩
  | .lookup5 => ⟨"LOOKUP_5", .index, 0b101#3, 0b111#3⟩
  | .lookup6 => ⟨"LOOKUP_6", .index, 0b110#3, 0b111#3⟩
  | .lookup7 => ⟨"LOOKUP_7", .index, 0b111#3, 0b111#3⟩
  | .edge _ => ⟨"EDGE", .control, 0b000#3, 0b000#3⟩
  | .dispatchSample => ⟨"DISPATCH_SAMPLE", .control, 0b010#3, 0b111#3⟩
  | .dispatchCommit => ⟨"DISPATCH_COMMIT", .control, 0b001#3, 0b101#3⟩
  | .snapshot => ⟨"SNAPSHOT", .control, 0b000#3, 0b000#3⟩
  | .reset => ⟨"RESET", .control, 0b000#3, 0b000#3⟩
  | .release => ⟨"RELEASE", .control, 0b100#3, 0b100#3⟩

/-- Three bits match a row: they agree with its match on its mask. -/
def OpRow.accepts (r : OpRow) (bits : BitVec 3) : Bool := decide (bits &&& r.mask = r.pat)

/-- The LOOKUP row that an index selects: every 3-bit index matches exactly one (R79). -/
def lookupInstr (i : PosIndex) : Instr :=
  (#v[.lookup0, .lookup1, .lookup2, .lookup3, .lookup4, .lookup5, .lookup6, .lookup7] : Vector Instr 8)[i.toNat]'i.isLt

/-- Why a script byte is rejected. -/
inductive DecodeError where
  /-- There is no byte to decode. -/
  | noLine
  /-- Bits 7 to 3 select no row. -/
  | unknownRow (selector : Nat)
  /-- The row was found, and bits 2 to 0 disagree with its match on its mask. -/
  | rowBits (mnemonic : String)
  deriving DecidableEq, Repr

/-- What the decoder answers: an instruction and the bytes after it, or a rejection by name. -/
inductive Decoded where
  | instr (i : Instr) (rest : List Byte)
  | reject (e : DecodeError)
  deriving DecidableEq, Repr

/-- The selector of an instruction's row in bits 7 to 3 (log 2). -/
def selectorOf : Instr → BitVec 5
  | .lookup0 => 0#5
  | .lookup1 => 0#5
  | .lookup2 => 0#5
  | .lookup3 => 0#5
  | .lookup4 => 0#5
  | .lookup5 => 0#5
  | .lookup6 => 0#5
  | .lookup7 => 0#5
  | .edge _ => 1#5
  | .dispatchSample => 2#5
  | .dispatchCommit => 3#5
  | .snapshot => 4#5
  | .reset => 5#5
  | .release => 6#5

/-- A row of the control format accepts a line whose three bits match it. -/
def decodeRow (i : Instr) (bits : BitVec 3) (rest : List Byte) : Decoded :=
  if i.row.accepts bits then .instr i rest else .reject (.rowBits i.row.mnemonic)

/-- Decode the first byte of a script. -/
def decode : List Byte → Decoded
  | [] => .reject .noLine
  | b :: rest =>
    let bits : BitVec 3 := b.extractLsb' 0 3
    match (b.extractLsb' 3 5 : BitVec 5).toNat with
    | 0 => .instr (lookupInstr bits) rest
    | 1 => decodeRow (.edge bits) bits rest
    | 2 => decodeRow .dispatchSample bits rest
    | 3 => decodeRow .dispatchCommit bits rest
    | 4 => decodeRow .snapshot bits rest
    | 5 => decodeRow .reset bits rest
    | 6 => decodeRow .release bits rest
    | n => .reject (.unknownRow n)

/-- The three low bits of an instruction's byte: EDGE's operand (R72), else its row's match, don't-care bits being 0. -/
def lineBits : Instr → BitVec 3
  | .lookup0 => Instr.lookup0.row.pat
  | .lookup1 => Instr.lookup1.row.pat
  | .lookup2 => Instr.lookup2.row.pat
  | .lookup3 => Instr.lookup3.row.pat
  | .lookup4 => Instr.lookup4.row.pat
  | .lookup5 => Instr.lookup5.row.pat
  | .lookup6 => Instr.lookup6.row.pat
  | .lookup7 => Instr.lookup7.row.pat
  | .edge v => v
  | .dispatchSample => Instr.dispatchSample.row.pat
  | .dispatchCommit => Instr.dispatchCommit.row.pat
  | .snapshot => Instr.snapshot.row.pat
  | .reset => Instr.reset.row.pat
  | .release => Instr.release.row.pat

/-- The byte of an instruction. -/
def encodeByte (i : Instr) : Byte := selectorOf i ++ lineBits i

/-- The words of an instruction: one byte. -/
def encode (i : Instr) : List Byte := [encodeByte i]

/-- The first n bytes of a number, the least significant first. -/
def bytesOf : Nat → Nat → List Byte
  | 0, _ => []
  | n + 1, w => BitVec.ofNat 8 w :: bytesOf n (w / 256)

/-- The bytes of a table word of nbits bits, at least one byte being the longest instruction. -/
def wordBytes (nbits w : Nat) : List Byte := bytesOf (max 1 ((nbits + 7) / 8)) w

/-- What the decoder reads from a word of opcode_table.json. -/
def decodeTableWord (nbits w : Nat) : Option Instr :=
  match decode (wordBytes nbits w) with
  | .instr i _ => some i
  | .reject _ => none

end Sys2Proof
end

