-- ==== Sys2Proof/Machine/State.lean ====
section
/-! DEFINITION. The state: every field of the record of R20, the parameters of R10, and the model's own bookkeeping;
the ways a step can stop; the state after reset. -/

namespace Sys2Proof.Machine

/-- The dispatcher's phase (R29): IDLE (0) when no dispatch is in progress, SAMPLED (1) between sample and commit. -/
inductive Phase where
  | idle
  | sampled
  deriving DecidableEq, Repr

/-- A record of the event history (R16). -/
inductive Event where
  /-- Commit(index, pattern, gate), at every DISPATCH_COMMIT. -/
  | commit (index : PosIndex) (pattern : Pattern) (gate : Gates)
  /-- Hook(index, pattern), the observer event of every DISPATCH_COMMIT (R125). -/
  | hook (index : PosIndex) (pattern : Pattern)
  /-- ResetOut(gate), at every RESET. -/
  | resetOut (gate : Gates)
  /-- Snap(word), at every SNAPSHOT. -/
  | snap (word : SnapWord)
  deriving DecidableEq, Repr

/-- What an operation returns to its caller. -/
inductive Returned where
  /-- The pattern a LOOKUP returns (R87). -/
  | pattern (p : Pattern)
  /-- The word a SNAPSHOT returns (R128). -/
  | word (w : SnapWord)
  deriving DecidableEq, Repr

/-- The state of the core (R20), with the configuration it runs under and the model's own bookkeeping. -/
structure State where
  /-- hall_in: the levels of the three Hall lines (R26). -/
  hallIn : HallLevels
  /-- gate: the register that drives the six gate lines, physical levels (R27). -/
  gate : Gates
  /-- pend: an edge has been seen and no dispatch has sampled since (R28). -/
  pend : Bool
  /-- phase: the dispatcher's phase (R29). -/
  phase : Phase
  /-- idx_latch: the index the current dispatch sampled (R30). -/
  idxLatch : PosIndex
  /-- diag_index: the last committed index (R31). -/
  diagIndex : PosIndex
  /-- diag_pattern: the last committed pattern, in logical form (R31). -/
  diagPattern : Pattern
  /-- in_reset: reset is asserted (R32). -/
  inReset : Bool
  /-- history: the event history, oldest record first (R16, R33). -/
  history : List Event
  /-- The parameters of R10, fixed for the run (R44, log 7). -/
  params : Params
  /-- MODEL: what the last LOOKUP or SNAPSHOT returned (log 5). -/
  returned : Option Returned
  /-- MODEL: the script lines still to run (R77, log 3). -/
  script : List Byte
  /-- MODEL: how many free schedule choices have been taken (log 4). -/
  tick : Nat
  deriving DecidableEq, Repr

/-- The faults: there are none. The core raises no exception and no step of the model faults (R136, R153). -/
inductive Fault where
  deriving DecidableEq, Repr

/-- Why a step is refused (R153). -/
inductive Refusal where
  /-- Raised by no meaning: for an arm of exec that has none. Safe. -/
  | notModelled (mnemonic : String)
  /-- Raised by EDGE, DISPATCH_SAMPLE, DISPATCH_COMMIT and RELEASE when the step's guard does not hold: the line is not a
  legal step and the script is refused at it (R77, R153). Safe: the spec has no such transition. -/
  | guardFails (mnemonic : String)
  /-- Raised by the step and by the launch when the parameters break R88, R89 or PIN_MAP's injectivity: no run of that
  configuration exists (R139, R153). Safe. -/
  | configurationRefused
  /-- Raised by the step when a script byte encodes no line (log 2). Safe. -/
  | undecodableLine (e : DecodeError)
  deriving DecidableEq, Repr

/-- The machine right after reset: the launch state that a RESET step leaves (R35, R36), under the default parameters
(R10). The RESET has recorded its ResetOut (log 11). hall_in is an input that reset does not set: 0b000 is a DESIGN
CHOICE (log 6). No script is loaded and nothing has been returned (logs 3, 4, 5). -/
def State.reset : State :=
  { hallIn := 0#3
    gate := 0x15#6
    pend := false
    phase := .idle
    idxLatch := 0#3
    diagIndex := 0#3
    diagPattern := 0#6
    inReset := true
    history := [.resetOut 0x15#6]
    params := Params.default
    returned := none
    script := []
    tick := 0 }

end Sys2Proof.Machine
end

