-- ==== Sys2Proof/Machine/Ops.lean ====
section
/-! DEFINITION. The named operations over ports and registers. The core has no memory (R45) and takes no exception
(R136): its one interrupt, the Hall edge, enters by a sample and returns by a commit (R142, R143). -/

namespace Sys2Proof.Machine

/-- InRead(): the three Hall line levels at one instant, with no side effect (R46). -/
def inRead (s : State) : HallLevels := s.hallIn

/-- OutWrite(v): all six gate lines take the levels v in one step, with no other effect (R47, R48). -/
def outWrite (v : Gates) (s : State) : State := { s with gate := v }

/-- The diagnostic read port: both fields of one pair in one atomic read (R50). -/
def diagRead (s : State) : SnapWord := pairWord s.diagIndex s.diagPattern

/-- SAMPLE(): PACK of the current levels and of nothing else (R81, R82). -/
def sample (s : State) : PosIndex := pack (inRead s)

/-- LOOKUP(index): the row of COMM_TABLE (R87). -/
def lookup (i : PosIndex) (s : State) : Pattern := tableRow s.params.commTable i

/-- COMMIT(p): all six gate lines in one atomic step (R105). -/
def commitPattern (p : Pattern) (s : State) : State := outWrite (encodeGates p) s

/-- Append records to the event history, which is never cleared (R16, R33). -/
def record (es : List Event) (s : State) : State := { s with history := s.history ++ es }

/-- Set the diagnostic pair, both fields in one step (R31). -/
def setPair (i : PosIndex) (p : Pattern) (s : State) : State := { s with diagIndex := i, diagPattern := p }

/-- Hand a value back to the caller of an operation (log 5). -/
def answer (r : Returned) (s : State) : State := { s with returned := some r }

/-- Dispatch entry: latch the index, take the pending edge, enter SAMPLED. It saves nothing and changes no mode (R116, R142). -/
def enterDispatch (i : PosIndex) (s : State) : State :=
  { s with idxLatch := i, pend := false, phase := .sampled }

/-- Dispatch return: back to IDLE. It restores nothing (R120, R143). -/
def leaveDispatch (s : State) : State := { s with phase := .idle }

/-- The reset values of R35; hall_in, the history and the table are not among them. -/
def resetFields (s : State) : State :=
  { s with
    pend := false
    phase := .idle
    idxLatch := 0#3
    diagIndex := 0#3
    diagPattern := off
    inReset := true }

end Sys2Proof.Machine
end

