-- ==== Sys2Proof/Machine/Operands.lean ====
section
/-! DEFINITION. Where each instruction's operand comes from (R72). SNAPSHOT, RESET and RELEASE take none. -/

namespace Sys2Proof.Machine

/-- EDGE's operand is the new line vector itself (R72, R112). -/
def edgeOperand (v : HallLevels) : HallLevels := v

/-- DISPATCH_SAMPLE takes its operand from the lines, through InRead (R72, R116). -/
def sampleOperand (s : State) : PosIndex := sample s

/-- DISPATCH_COMMIT takes its operand from idx_latch (R72, R120). -/
def commitOperand (s : State) : PosIndex := s.idxLatch

end Sys2Proof.Machine
end

