-- ==== Sys2Proof/Machine/Flags.lean ====
section
/-! DEFINITION. The status bits pend, phase and in_reset: the control vector, the guards over it, and the updates of pend
and in_reset. No agent can read these bits (R23). -/

namespace Sys2Proof.Machine

/-- The phase as one bit: IDLE = 0, SAMPLED = 1 (R29). -/
def phaseBit : Phase → Bool
  | .idle => false
  | .sampled => true

/-- The control vector: bit 2 = in_reset, bit 1 = pend, bit 0 = phase (R71). -/
def ctl (s : State) : Ctl :=
  BitVec.ofBool s.inReset ++ BitVec.ofBool s.pend ++ BitVec.ofBool (phaseBit s.phase)

/-- EDGE(v) may fire when v differs from the lines (R112). -/
def edgeGuard (v : HallLevels) (s : State) : Bool := decide (v ≠ s.hallIn)

/-- DISPATCH_SAMPLE may fire out of reset, with an edge pending and no dispatch in progress (R116). -/
def sampleGuard (s : State) : Bool := !s.inReset && s.pend && decide (s.phase = .idle)

/-- DISPATCH_COMMIT may fire out of reset after a sample (R120). -/
def commitGuard (s : State) : Bool := !s.inReset && decide (s.phase = .sampled)

/-- RELEASE may fire in reset (R158). -/
def releaseGuard (s : State) : Bool := s.inReset

/-- An edge is noted in pend, unless reset holds it off (R112). -/
def noteEdge (s : State) : State := if s.inReset then s else { s with pend := true }

/-- Reset release: in_reset falls and pend takes INITIAL_DISPATCH (R158). -/
def releaseReset (s : State) : State := { s with inReset := false, pend := s.params.initialDispatch }

end Sys2Proof.Machine
end

