-- ==== Sys2Proof/Machine/Diagnostics.lean ====
section
/-! DEFINITION. MAIN's step SNAPSHOT (43_dispatcher.md section 4). -/

namespace Sys2Proof.Machine

/-- SNAPSHOT: read the pair in one atomic read, record the word and return it; no core state is written (R128). -/
def execSnapshot (s : State) : Host.Outcome State Fault Refusal :=
  .next (answer (.word (diagRead s)) (record [.snap (diagRead s)] s))

end Sys2Proof.Machine
end

