-- ==== Sys2Proof/Machine/Dispatcher.lean ====
section
/-! DEFINITION. The Dispatcher's steps DISPATCH_SAMPLE and DISPATCH_COMMIT (43_dispatcher.md section 2). -/

namespace Sys2Proof.Machine

/-- DISPATCH_SAMPLE: latch the index of the lines as they stand, take the pending edge (R116, R117, R118). -/
def execDispatchSample (s : State) : Host.Outcome State Fault Refusal :=
  if sampleGuard s then .next (enterDispatch (sampleOperand s) s)
  else .refused (.guardFails "DISPATCH_SAMPLE")

/-- The commit of an index: the gate write first, then the pair and the phase, then the records Commit and Hook (R57, R120). -/
def commitIndex (i : PosIndex) (s : State) : State :=
  let p := lookup i s
  record [.commit i p (encodeGates p), .hook i p] (leaveDispatch (setPair i p (commitPattern p s)))

/-- DISPATCH_COMMIT: look up and commit the latched index (R120). pend is not touched. -/
def execDispatchCommit (s : State) : Host.Outcome State Fault Refusal :=
  if commitGuard s then .next (commitIndex (commitOperand s) s)
  else .refused (.guardFails "DISPATCH_COMMIT")

end Sys2Proof.Machine
end

