-- ==== Sys2Proof/Machine/Reset.lean ====
section
/-! DEFINITION. RST's steps RESET and RELEASE, and the launch (70_reset_and_hazards.md section 1). -/

namespace Sys2Proof.Machine

/-- RESET: SAFE on the gate lines in one write, the reset values, one ResetOut record. hall_in is not changed and the
history is not cleared (R156). -/
def execReset (s : State) : Host.Outcome State Fault Refusal :=
  .next (record [.resetOut safeGates] (resetFields (outWrite safeGates s)))

/-- RELEASE: the core is armed, with no enable step needed (R158). -/
def execRelease (s : State) : Host.Outcome State Fault Refusal :=
  if releaseGuard s then .next (releaseReset s) else .refused (.guardFails "RELEASE")

/-- The launch state of a configuration: what a RESET step leaves when the history is empty (R36), with the lines at hall
and a script loaded. -/
def launchState (p : Params) (hall : HallLevels) (script : List Byte) : State :=
  { State.reset with hallIn := hall, params := p, script := script }

/-- The launch: a configuration that breaks R88 or R89 is refused, and no run of it exists (R139). -/
def launch (p : Params) (hall : HallLevels) (script : List Byte) : Host.Outcome State Fault Refusal :=
  if p.wf then .next (launchState p hall script) else .refused .configurationRefused

end Sys2Proof.Machine
end

