-- ==== Sys2Proof/Machine/Sensors.lean ====
section
/-! DEFINITION. ENV's step EDGE (43_dispatcher.md section 1). -/

namespace Sys2Proof.Machine

/-- EDGE(v): the lines take the levels v; out of reset the edge is pending (R112). It changes no output (R114). -/
def execEdge (v : HallLevels) (s : State) : Host.Outcome State Fault Refusal :=
  if edgeGuard v s then .next (noteEdge { s with hallIn := edgeOperand v })
  else .refused (.guardFails "EDGE")

end Sys2Proof.Machine
end

