-- ==== Sys2Proof/Machine/Table.lean ====
section
/-! DEFINITION. The meanings of LOOKUP_0 to LOOKUP_7 (41_table.md): the combinational table read of R87 on one index. It
writes no state of the core; the pattern is handed back to the caller (logs 5 and 10). -/

namespace Sys2Proof.Machine

/-- LOOKUP of one index: return its row, write no core state (R87). -/
def returnRow (i : PosIndex) (s : State) : State := answer (.pattern (lookup i s)) s

/-- LOOKUP_0 (R92). -/
def execLookup0 (s : State) : Host.Outcome State Fault Refusal := .next (returnRow 0#3 s)

/-- LOOKUP_1 (R93). -/
def execLookup1 (s : State) : Host.Outcome State Fault Refusal := .next (returnRow 1#3 s)

/-- LOOKUP_2 (R94). -/
def execLookup2 (s : State) : Host.Outcome State Fault Refusal := .next (returnRow 2#3 s)

/-- LOOKUP_3 (R95). -/
def execLookup3 (s : State) : Host.Outcome State Fault Refusal := .next (returnRow 3#3 s)

/-- LOOKUP_4 (R96). -/
def execLookup4 (s : State) : Host.Outcome State Fault Refusal := .next (returnRow 4#3 s)

/-- LOOKUP_5 (R97). -/
def execLookup5 (s : State) : Host.Outcome State Fault Refusal := .next (returnRow 5#3 s)

/-- LOOKUP_6 (R98). -/
def execLookup6 (s : State) : Host.Outcome State Fault Refusal := .next (returnRow 6#3 s)

/-- LOOKUP_7 (R99). -/
def execLookup7 (s : State) : Host.Outcome State Fault Refusal := .next (returnRow 7#3 s)

end Sys2Proof.Machine
end

