-- ==== Sys2Proof/Machine/Dispatch.lean ====
section
/-! DEFINITION. The meaning of each instruction, one arm per row of opcode_table.json. -/

namespace Sys2Proof.Machine

def exec (i : Instr) (s : State) : Host.Outcome State Fault Refusal :=
  match i with
  | .lookup0 => Sys2Proof.Machine.execLookup0 s
  | .lookup1 => Sys2Proof.Machine.execLookup1 s
  | .lookup2 => Sys2Proof.Machine.execLookup2 s
  | .lookup3 => Sys2Proof.Machine.execLookup3 s
  | .lookup4 => Sys2Proof.Machine.execLookup4 s
  | .lookup5 => Sys2Proof.Machine.execLookup5 s
  | .lookup6 => Sys2Proof.Machine.execLookup6 s
  | .lookup7 => Sys2Proof.Machine.execLookup7 s
  | .edge v => Sys2Proof.Machine.execEdge v s
  | .dispatchSample => Sys2Proof.Machine.execDispatchSample s
  | .dispatchCommit => Sys2Proof.Machine.execDispatchCommit s
  | .snapshot => Sys2Proof.Machine.execSnapshot s
  | .reset => Sys2Proof.Machine.execReset s
  | .release => Sys2Proof.Machine.execRelease s

end Sys2Proof.Machine
end

