-- ==== Sys2Proof/Machine/Schedule.lean ====
section
/-! DEFINITION. Which step comes next: the next line of the loaded script (R77), or, with no line waiting, a free choice
among the enabled steps (R14, R71, R131; log 3). -/

namespace Sys2Proof.Machine

/-- The eight line vectors (R26). -/
def allLevels : List HallLevels := [0#3, 1#3, 2#3, 3#3, 4#3, 5#3, 6#3, 7#3]

/-- The steps enabled in a state (R71): EDGE(v) for each v other than hall_in, SNAPSHOT and RESET always, and each other
step when its guard holds. The LOOKUP rows are no steps (R135). -/
def enabledSteps (s : State) : List Instr :=
  (allLevels.filter fun v => edgeGuard v s).map .edge ++ [.snapshot, .reset] ++
    (if sampleGuard s then [.dispatchSample] else []) ++
    (if commitGuard s then [.dispatchCommit] else []) ++
    (if releaseGuard s then [.release] else [])

/-- The step that the schedule's next free choice fires. -/
def drawStep (s : State) : Instr :=
  (enabledSteps s).getD (Config.schedule s.tick % (enabledSteps s).length) .snapshot

/-- One free choice has been taken. -/
def afterDraw (s : State) : State := { s with tick := s.tick + 1 }

/-- The script's next line. -/
def nextLine (s : State) : Decoded := decode s.script

/-- The script after its next line. -/
def afterLine (rest : List Byte) (s : State) : State := { s with script := rest }

/-- Bytes put in front of the script, where the step takes its next line. -/
def placeBytes (bs : List Byte) (s : State) : State := { s with script := bs ++ s.script }

end Sys2Proof.Machine
end

