-- ==== Sys2Proof/Machine/Step.lean ====
section
/-! DEFINITION. One step of the machine. The core has no program counter and fetches no instruction (R21): what the step
takes is the next line of the script, or the schedule's free choice (log 3). -/

namespace Sys2Proof.Machine

/-- One step: a configuration that breaks R88 or R89 has no run (R139); with a line waiting, the line's instruction runs
and the line is gone; with none, an enabled step fires. -/
def step (s : State) : Host.Outcome State Fault Refusal :=
  if s.params.wf then
    match s.script with
    | [] => exec (drawStep s) (afterDraw s)
    | _ :: _ =>
      match nextLine s with
      | .instr i rest => exec i (afterLine rest s)
      | .reject e => .refused (.undecodableLine e)
  else .refused .configurationRefused

/-- The word of an opcode-table row, put where the step takes its next line: in front of the script. -/
def State.withFetchWord (s : State) (nbits w : Nat) : State := placeBytes (wordBytes nbits w) s

end Sys2Proof.Machine
end

