-- ==== Sys2Proof/Machine/Pins.lean ====
section
/-! DEFINITION. The core's lines on a board, through PIN_MAP (R68). No step uses this. -/

namespace Sys2Proof.Machine

/-- The nine lines, in the order of R10. -/
def allLines : List Line := allSensors.map .hall ++ allSwitches.map .gate

/-- The pin of a line. -/
def pinOf (m : PinMap) : Line → Nat
  | .hall .a => m.hallA
  | .hall .b => m.hallB
  | .hall .c => m.hallC
  | .gate .ah => m.gateAH
  | .gate .al => m.gateAL
  | .gate .bh => m.gateBH
  | .gate .bl => m.gateBL
  | .gate .ch => m.gateCH
  | .gate .cl => m.gateCL

/-- The level of a line: an input line as ENV drives it (R26), a gate line as the gate register drives it (R27). -/
def lineLevel (s : State) : Line → Bool
  | .hall x => s.hallIn.getLsbD (sensorBit x)
  | .gate w => gateLevel s.gate w

/-- Pin identifiers with the levels of their lines, when PIN_MAP is given; the core drives and reads no other pin (R49). -/
def boardLevels (s : State) : Option (List (Nat × Bool)) :=
  s.params.pinMap.map fun m => allLines.map fun l => (pinOf m l, lineLevel s l)

end Sys2Proof.Machine
end

