-- ==== Sys2Proof/Machine/Script.lean ====
section
/-! DEFINITION. The script notation of R77 and R78: the expansion of the pseudo-steps, the bytes of a script, the reading
of its text. -/

namespace Sys2Proof.Machine

/-- A pseudo-step is an abbreviation for its steps, and other agents' steps may still come between them (R78). -/
def expand : ScriptLine → List Instr
  | .step i => [i]
  | .dispatch => [.dispatchSample, .dispatchCommit]
  | .hall v => [.edge v, .dispatchSample, .dispatchCommit]
  | .boot => [.reset, .release]

/-- The steps of a script. -/
def expandAll (ls : List ScriptLine) : List Instr := ls.flatMap expand

/-- The bytes of a script: one a step. -/
def assemble (ls : List ScriptLine) : List Byte := (expandAll ls).flatMap encode

/-- Run instructions one after another, stopping at the first that is refused (R77). -/
def runSteps : List Instr → State → Host.Outcome State Fault Refusal
  | [], s => .next s
  | i :: is, s =>
    match exec i s with
    | .next t => runSteps is t
    | .fault f => .fault f
    | .refused r => .refused r

/-! ### Text (log 16) -/

/-- Cut a text at separators. -/
def splitAtSep (sep : Char → Bool) : List Char → List (List Char)
  | [] => [[]]
  | c :: cs =>
    if sep c then [] :: splitAtSep sep cs
    else
      match splitAtSep sep cs with
      | [] => [[c]]
      | w :: ws => (c :: w) :: ws

/-- Space, tab or carriage return. -/
def isGap (c : Char) : Bool := c == ' ' || c == '\t' || c == '\r'

/-- The words of a line; text after a semicolon is a comment (R77). -/
def lineWords (cs : List Char) : List (List Char) :=
  (splitAtSep isGap (cs.takeWhile (· != ';'))).filter fun w => !w.isEmpty

/-- The digits of R12's notations, each at the place of its value; a base uses as many of them as it counts. -/
def digitChars : List Char := "0123456789ABCDEF".toList

/-- The value of a digit of a base, its letters in either case (log 16). -/
def digitOf (base : Nat) (c : Char) : Option Nat := (digitChars.take base).idxOf? c.toUpper

/-- The number that digits of a base write, the most significant first (R12). -/
def readDigits (base : Nat) (ds : List Char) : Option Nat :=
  ds.foldl (fun acc c => acc.bind fun n => (digitOf base c).map (base * n + ·)) (some 0)

/-- A numeral, by its notation: 0b binary, 0x hexadecimal, else decimal (R12). A prefix alone and an empty word are none. -/
def readNumeral : List Char → Option Nat
  | [] => none
  | ['0', 'b'] => none
  | ['0', 'x'] => none
  | '0' :: 'b' :: ds => readDigits 2 ds
  | '0' :: 'x' :: ds => readDigits 16 ds
  | ds => readDigits 10 ds

/-- A line vector: a numeral below 8 (R77). -/
def readLevels (cs : List Char) : Option HallLevels :=
  match readNumeral cs with
  | some n => if n < 8 then some (BitVec.ofNat 3 n) else none
  | none => none

/-- A script line without an operand, by its name (R77, R78). -/
def plainLine (w : List Char) : Option ScriptLine :=
  if w = "SAMPLE".toList then some (.step .dispatchSample)
  else if w = "COMMIT".toList then some (.step .dispatchCommit)
  else if w = "SNAPSHOT".toList then some (.step .snapshot)
  else if w = "RESET".toList then some (.step .reset)
  else if w = "RELEASE".toList then some (.step .release)
  else if w = "DISPATCH".toList then some .dispatch
  else if w = "BOOT".toList then some .boot
  else none

/-- A script line with a line vector, by its name (R77, R78). -/
def levelsLine (w : List Char) (v : HallLevels) : Option ScriptLine :=
  if w = "EDGE".toList then some (.step (.edge v))
  else if w = "HALL".toList then some (.hall v)
  else none

/-- One line of text: nothing on it, one script line, or none where the notation has no such line. -/
def parseLine (cs : List Char) : Option (List ScriptLine) :=
  match lineWords cs with
  | [] => some []
  | [w] => (plainLine w).map fun l => [l]
  | [w, v] =>
    match readLevels v with
    | some x => (levelsLine w x).map fun l => [l]
    | none => none
  | _ => none

/-- A text of several lines. -/
def parseLines : List (List Char) → Option (List ScriptLine)
  | [] => some []
  | cs :: rest =>
    match parseLine cs, parseLines rest with
    | some l, some ls => some (l ++ ls)
    | _, _ => none

/-- A script's text, one step per line (R77). -/
def parseScript (t : String) : Option (List ScriptLine) := parseLines (splitAtSep (· == '\n') t.toList)

end Sys2Proof.Machine
end

