-- ==== Sys2Proof/Safety.lean ====
section
/-! DEFINITION. The terms claims are stated in: enabled steps, reachable states, the invariant, what a history says, runs
of all agents, weak fairness. -/

namespace Sys2Proof.Machine

/-- The six steps of the model; the LOOKUP rows are items of the table and no steps (R135). -/
def isStep : Instr → Bool
  | .lookup0 => false
  | .lookup1 => false
  | .lookup2 => false
  | .lookup3 => false
  | .lookup4 => false
  | .lookup5 => false
  | .lookup6 => false
  | .lookup7 => false
  | .edge _ => true
  | .dispatchSample => true
  | .dispatchCommit => true
  | .snapshot => true
  | .reset => true
  | .release => true

/-- An instruction is enabled in a state: it answers a next state. -/
def Enabled (i : Instr) (s : State) : Prop := ∃ t, exec i s = .next t

/-- The states reachable from a launch of a configuration under any schedule of instructions (R14, R36). The script and
the counter of free choices are the schedule, so they may hold anything (logs 3 and 4). -/
inductive Reachable (p : Params) : State → Prop where
  | launch (hall : HallLevels) (script : List Byte) (h : p.wf = true) : Reachable p (launchState p hall script)
  | exec (i : Instr) (s t : State) (hs : Reachable p s) (h : exec i s = .next t) : Reachable p t
  | schedule (s : State) (script : List Byte) (tick : Nat) (hs : Reachable p s) :
      Reachable p { s with script := script, tick := tick }

/-- The invariant of R35, R37, R38 and R40 under a configuration that may be launched. -/
structure Inv (s : State) : Prop where
  /-- The configuration obeys R88 and R89. -/
  wf : s.params.wf = true
  /-- R37. -/
  pair : s.diagPattern = tableRow s.params.commTable s.diagIndex
  /-- R38. -/
  lines : s.gate = encodeGates s.diagPattern
  /-- R40. -/
  sampledArmed : s.phase = .sampled → s.inReset = false
  /-- R35: the reset values hold for as long as reset is asserted. -/
  heldInReset : s.inReset = true →
    s.gate = 0x15#6 ∧ s.pend = false ∧ s.phase = .idle ∧ s.idxLatch = 0#3 ∧ s.diagIndex = 0#3 ∧ s.diagPattern = 0#6

/-- No dispatch is in progress and none is pending, out of reset (R41). -/
def Quiescent (s : State) : Prop := s.inReset = false ∧ s.pend = false ∧ s.phase = .idle

/-! ### What a history says -/

/-- A DISPATCH_COMMIT has happened since the last RESET (R41). -/
def committedSinceReset (h : List Event) : Bool :=
  h.foldl (fun b e => match e with
    | .commit _ _ _ => true
    | .resetOut _ => false
    | .hook _ _ => b
    | .snap _ => b) false

/-- The gate value of the last DISPATCH_COMMIT or RESET of a history (R56). -/
def lastGate (h : List Event) : Option Gates :=
  h.foldl (fun b e => match e with
    | .commit _ _ g => some g
    | .resetOut g => some g
    | .hook _ _ => b
    | .snap _ => b) none

/-- The pair of the last DISPATCH_COMMIT or RESET of a history (R56). -/
def lastPair (h : List Event) : Option (PosIndex × Pattern) :=
  h.foldl (fun b e => match e with
    | .commit i p _ => some (i, p)
    | .resetOut _ => some (0#3, 0#6)
    | .hook _ _ => b
    | .snap _ => b) none

/-- Every Commit is the row of its index and that row's gate vector, and its Hook follows it at once; no other Hook
stands in the history; every ResetOut is SAFE; every Snap word pairs an index with its row (R56, R57, R106, R126, R129). -/
def historyOk (t : CommTable) : List Event → Bool
  | [] => true
  | .commit i p g :: .hook j q :: rest =>
    decide (p = tableRow t i) && decide (g = encodeGates p) && decide (j = i) && decide (q = p) && historyOk t rest
  | .commit _ _ _ :: _ => false
  | .hook _ _ :: _ => false
  | .resetOut g :: rest => decide (g = 0x15#6) && historyOk t rest
  | .snap w :: rest => decide (wordPattern w = tableRow t (wordIndex w)) && historyOk t rest

/-- What an instruction appends to the history of a state it runs in (R16). -/
def recordsOf (i : Instr) (s : State) : List Event :=
  match i with
  | .dispatchCommit =>
    [.commit s.idxLatch (tableRow s.params.commTable s.idxLatch)
        (tableRow s.params.commTable s.idxLatch ^^^ 0b010101#6),
      .hook s.idxLatch (tableRow s.params.commTable s.idxLatch)]
  | .reset => [.resetOut 0x15#6]
  | .snapshot => [.snap (s.diagIndex ++ s.diagPattern)]
  | .lookup0 => []
  | .lookup1 => []
  | .lookup2 => []
  | .lookup3 => []
  | .lookup4 => []
  | .lookup5 => []
  | .lookup6 => []
  | .lookup7 => []
  | .edge _ => []
  | .dispatchSample => []
  | .release => []

/-! ### Runs of all agents -/

/-- An infinite run: the n-th instruction takes the n-th state to the next (R14). -/
def IsRun (st : Nat → State) (lab : Nat → Instr) : Prop := ∀ n, exec (lab n) (st n) = .next (st (n + 1))

/-- Weak fairness of DISP: a DISP step that stays enabled eventually fires (R131). -/
def WeaklyFair (st : Nat → State) (lab : Nat → Instr) : Prop :=
  ∀ i, i = .dispatchSample ∨ i = .dispatchCommit →
    ∀ n, (∀ m, n ≤ m → Enabled i (st m)) → ∃ m, n ≤ m ∧ lab m = i

/-- From step n on, ENV leaves the lines alone and RST does not reset (R131). -/
def QuietFrom (lab : Nat → Instr) (n : Nat) : Prop :=
  ∀ m, n ≤ m → lab m ≠ .reset ∧ ∀ v, lab m ≠ .edge v

end Sys2Proof.Machine
end

