-- ==== Sys2Proof/Certificates/Slice0/Obligations.lean ====
section
/-! DEFINITION. The statements for the provers. Each docstring names the rules it rests on; the number of an assumption log
entry is given where a clause is the model's own choice. The core has no memory (R45), so no frame speaks of one. -/

open Sys2Proof Sys2Proof.Machine

/-! ### Reset, launch, configuration -/

/-- The state after reset, and the launch state of every configuration that may be launched, meet the invariant (R35,
R36 to R40). -/
def Obligations.ResetAndLaunchMeetTheInvariant : Prop :=
  Inv State.reset ∧
    ∀ (p : Params) (hall : HallLevels) (script : List Byte), p.wf = true →
      ∃ s, launch p hall script = .next s ∧ Inv s ∧ s.params = p ∧ s.hallIn = hall ∧ s.script = script

/-- R35: after a RESET step, and for as long as in_reset = 1, the fields hold the reset values; the lines, the table and
the earlier history are not reset; RELEASE gives pend the value INITIAL_DISPATCH. -/
def Obligations.ResetValuesHoldWhileInReset : Prop :=
  (∀ s : State, ∃ t, exec .reset s = .next t ∧ t.gate = 0x15#6 ∧ t.pend = false ∧ t.phase = .idle ∧ t.idxLatch = 0#3 ∧
      t.diagIndex = 0#3 ∧ t.diagPattern = 0#6 ∧ t.inReset = true ∧ t.hallIn = s.hallIn ∧
      t.history = s.history ++ [.resetOut 0x15#6] ∧ t.params = s.params) ∧
    (∀ (p : Params) (s : State), Reachable p s → s.inReset = true →
      s.gate = 0x15#6 ∧ s.pend = false ∧ s.phase = .idle ∧ s.idxLatch = 0#3 ∧ s.diagIndex = 0#3 ∧ s.diagPattern = 0#6) ∧
    (∀ s t : State, exec .release s = .next t → t.pend = s.params.initialDispatch)

/-- R36: the launch state is the state that a RESET step leaves, when the history was empty (R33). -/
def Obligations.LaunchStateIsWhatResetLeaves : Prop :=
  ∀ s : State, s.history = [] →
    exec .reset s =
      .next { launchState s.params s.hallIn s.script with returned := s.returned, tick := s.tick }

/-- R88, R89, R139: a configuration (with PIN_MAP open) launches exactly when no row sets both flags of a phase, rows 1 to
6 each enable one high side and one low side of two distinct phases and nothing else, and rows 0 and 7 are all-off; one
that does not launch is refused, and no state of it is reachable. -/
def Obligations.LaunchAcceptsExactlyTheLawfulTables : Prop :=
  ∀ (p : Params) (hall : HallLevels) (script : List Byte), p.pinMap = none →
    ((∃ s, launch p hall script = .next s) ↔
      (∀ (i : PosIndex) (l : Leg),
        ((tableRow p.commTable i).getLsbD (2 * legNumber l) && (tableRow p.commTable i).getLsbD (2 * legNumber l + 1)) = false) ∧
      (∀ i : PosIndex, i ≠ 0#3 → i ≠ 7#3 → ∃ h l : Leg, h ≠ l ∧
        tableRow p.commTable i = (1#6 <<< (2 * legNumber h)) ||| (1#6 <<< (2 * legNumber l + 1))) ∧
      tableRow p.commTable 0#3 = 0#6 ∧ tableRow p.commTable 7#3 = 0#6) ∧
    ((∀ s, launch p hall script ≠ .next s) →
      launch p hall script = .refused .configurationRefused ∧ ∀ s : State, ¬Reachable p s)

/-- A state that carries a configuration that may not be launched takes no step (60_exceptions.md section 1; that the step
itself refuses it is the model's choice, log 8). -/
def Obligations.RefusedConfigurationTakesNoStep : Prop :=
  ∀ (s : State) (hall : HallLevels) (script : List Byte), launch s.params hall script = .refused .configurationRefused →
    step s = .refused .configurationRefused

/-! ### The steps, each with its result and its completion -/

/-- R112: EDGE(v), for a v other than the lines, sets the lines and, out of reset, pend; for the lines' own value it is no
legal step. -/
def Obligations.EdgeMovesTheLinesAndNotesTheEdge : Prop :=
  ∀ (v : HallLevels) (s : State),
    (v ≠ s.hallIn → s.inReset = false → exec (.edge v) s = .next { s with hallIn := v, pend := true }) ∧
    (v ≠ s.hallIn → s.inReset = true → exec (.edge v) s = .next { s with hallIn := v }) ∧
    (v = s.hallIn → exec (.edge v) s = .refused (.guardFails "EDGE"))

/-- R116: DISPATCH_SAMPLE latches the packed lines, clears pend and enters SAMPLED; it is enabled exactly out of reset, with
pend set and the phase IDLE. -/
def Obligations.SampleLatchesTheLinesAndClearsPend : Prop :=
  ∀ s : State,
    (s.inReset = false ∧ s.pend = true ∧ s.phase = .idle →
      exec .dispatchSample s = .next { s with idxLatch := pack s.hallIn, pend := false, phase := .sampled }) ∧
    (¬(s.inReset = false ∧ s.pend = true ∧ s.phase = .idle) →
      exec .dispatchSample s = .refused (.guardFails "DISPATCH_SAMPLE"))

/-- R120: DISPATCH_COMMIT writes the gate lines, the diagnostic pair and the phase, and records Commit and then Hook, from
the row of the latched index; it is enabled exactly out of reset and in SAMPLED. -/
def Obligations.CommitWritesTheRowOfTheLatchedIndex : Prop :=
  ∀ s : State,
    (s.inReset = false ∧ s.phase = .sampled →
      exec .dispatchCommit s = .next
        { s with
          gate := tableRow s.params.commTable s.idxLatch ^^^ 0b010101#6
          diagIndex := s.idxLatch
          diagPattern := tableRow s.params.commTable s.idxLatch
          phase := .idle
          history := s.history ++
            [.commit s.idxLatch (tableRow s.params.commTable s.idxLatch)
                (tableRow s.params.commTable s.idxLatch ^^^ 0b010101#6),
              .hook s.idxLatch (tableRow s.params.commTable s.idxLatch)] }) ∧
    (¬(s.inReset = false ∧ s.phase = .sampled) →
      exec .dispatchCommit s = .refused (.guardFails "DISPATCH_COMMIT"))

/-- SNAPSHOT is enabled in every state: it records and returns the word of the pair, and writes no core state (43_dispatcher.md
section 4). That the returned word stands in the field returned is the model's choice (log 5). -/
def Obligations.SnapshotReturnsThePairWord : Prop :=
  ∀ s : State, exec .snapshot s = .next
    { s with
      history := s.history ++ [.snap (s.diagIndex ++ s.diagPattern)]
      returned := some (.word (s.diagIndex ++ s.diagPattern)) }

/-- R156: RESET is enabled in every state, drives SAFE, writes the reset values and records ResetOut. -/
def Obligations.ResetDrivesSafeFromEveryState : Prop :=
  ∀ s : State, exec .reset s = .next
    { s with
      gate := 0b010101#6
      pend := false
      phase := .idle
      idxLatch := 0b000#3
      diagIndex := 0b000#3
      diagPattern := 0b000000#6
      inReset := true
      history := s.history ++ [.resetOut 0b010101#6] }

/-- R158: RELEASE clears in_reset and gives pend the value INITIAL_DISPATCH; it is enabled exactly in reset. -/
def Obligations.ReleaseArmsTheCore : Prop :=
  ∀ s : State,
    (s.inReset = true → exec .release s = .next { s with inReset := false, pend := s.params.initialDispatch }) ∧
    (s.inReset = false → exec .release s = .refused (.guardFails "RELEASE"))

/-- LOOKUP_0 to LOOKUP_7 are enabled in every state, return the row of their index and write no core state (41_table.md
section 1). That a LOOKUP row is an instruction of its own and that its result stands in the field returned are the
model's choices (logs 5 and 10). -/
def Obligations.LookupsReturnTheirRows : Prop :=
  ∀ s : State,
    exec .lookup0 s = .next { s with returned := some (.pattern (tableRow s.params.commTable 0#3)) } ∧
    exec .lookup1 s = .next { s with returned := some (.pattern (tableRow s.params.commTable 1#3)) } ∧
    exec .lookup2 s = .next { s with returned := some (.pattern (tableRow s.params.commTable 2#3)) } ∧
    exec .lookup3 s = .next { s with returned := some (.pattern (tableRow s.params.commTable 3#3)) } ∧
    exec .lookup4 s = .next { s with returned := some (.pattern (tableRow s.params.commTable 4#3)) } ∧
    exec .lookup5 s = .next { s with returned := some (.pattern (tableRow s.params.commTable 5#3)) } ∧
    exec .lookup6 s = .next { s with returned := some (.pattern (tableRow s.params.commTable 6#3)) } ∧
    exec .lookup7 s = .next { s with returned := some (.pattern (tableRow s.params.commTable 7#3)) }

/-- With the default table, each LOOKUP row returns the pattern that opcode_table.json and 41_table.md section 2 give it, and
in a launched configuration LOOKUP_0 and LOOKUP_7 return all-off whatever the table (logs 5 and 10 for the returned field). -/
def Obligations.LookupsReturnTheDocumentedPatterns : Prop :=
  (∀ s : State, s.params.commTable = Params.default.commTable →
    ∀ e ∈ [(Instr.lookup0, 0b000000#6), (.lookup1, 0b100001#6), (.lookup2, 0b000110#6), (.lookup3, 0b100100#6),
        (.lookup4, 0b011000#6), (.lookup5, 0b001001#6), (.lookup6, 0b010010#6), (.lookup7, 0b000000#6)],
      ∃ t, exec e.1 s = .next t ∧ t.returned = some (.pattern e.2)) ∧
    (∀ s : State, s.params.wf = true →
      ∀ i ∈ [Instr.lookup0, .lookup7], ∃ t, exec i s = .next t ∧ t.returned = some (.pattern 0#6))

/-- R90, R110: the reset configuration holds the default table, and with that table a commit of each index drives the gate
vector of its row. -/
def Obligations.DefaultTableDrivesTheDocumentedGates : Prop :=
  ∀ e ∈ [(0#3, 0b000000#6, 0x15#6), (1#3, 0b100001#6, 0x34#6), (2#3, 0b000110#6, 0x13#6), (3#3, 0b100100#6, 0x31#6),
      (4#3, 0b011000#6, 0x0D#6), (5#3, 0b001001#6, 0x1C#6), (6#3, 0b010010#6, 0x07#6), (7#3, 0b000000#6, 0x15#6)],
    tableRow State.reset.params.commTable e.1 = e.2.1 ∧
    ∀ s : State, s.params.commTable = State.reset.params.commTable → s.inReset = false → s.phase = .sampled →
      s.idxLatch = e.1 → ∃ t, exec .dispatchCommit s = .next t ∧ t.diagPattern = e.2.1 ∧ t.gate = e.2.2

/-- R80: the index that a sample latches is a + 2*b + 4*c of the three line levels, and every index is the index of exactly
one line vector. -/
def Obligations.SampledIndexIsThePackedLines : Prop :=
  (∀ s t : State, exec .dispatchSample s = .next t →
    t.idxLatch.toNat = (s.hallIn.getLsbD 0).toNat + 2 * (s.hallIn.getLsbD 1).toNat + 4 * (s.hallIn.getLsbD 2).toNat) ∧
  (∀ i : PosIndex, ∃ v : HallLevels, pack v = i ∧ ∀ w, pack w = i → w = v)

/-- R104: after every commit each of the six lines is at its on level when the committed pattern enables its switch and at its
off level otherwise: high sides active-low, low sides active-high, whatever the state before; after RESET every line is at
its off level. -/
def Obligations.DrivenLinesFollowThePolarity : Prop :=
  (∀ s t : State, exec .dispatchCommit s = .next t →
    t.gate.getLsbD 0 = !t.diagPattern.getLsbD 0 ∧ t.gate.getLsbD 1 = t.diagPattern.getLsbD 1 ∧
    t.gate.getLsbD 2 = !t.diagPattern.getLsbD 2 ∧ t.gate.getLsbD 3 = t.diagPattern.getLsbD 3 ∧
    t.gate.getLsbD 4 = !t.diagPattern.getLsbD 4 ∧ t.gate.getLsbD 5 = t.diagPattern.getLsbD 5) ∧
  (∀ s t : State, exec .reset s = .next t →
    t.gate.getLsbD 0 = true ∧ t.gate.getLsbD 1 = false ∧ t.gate.getLsbD 2 = true ∧ t.gate.getLsbD 3 = false ∧
    t.gate.getLsbD 4 = true ∧ t.gate.getLsbD 5 = false)

/-- R102: DECODE undoes ENCODE and ENCODE undoes DECODE, and a gate vector puts both lines of some phase at their on levels
exactly when its decoded pattern is not safe. -/
def Obligations.DecodeUndoesEncode : Prop :=
  (∀ p : Pattern, decodeGates (encodeGates p) = p) ∧ (∀ g : Gates, encodeGates (decodeGates g) = g) ∧
  (∀ g : Gates, (∃ l : Leg, switchedOn g (highSwitch l) = true ∧ switchedOn g (lowSwitch l) = true) ↔
    isSafe (decodeGates g) = false)

/-! ### The step function, the script, the decoder -/

/-- A step runs the decoded instruction: with a launched configuration, when the bytes of the script decode to an instruction,
the step is exec of it on the state whose script is the rest; when they are rejected the step is refused by name. Scripts
as bytes are the model's choice (logs 2 and 3). -/
def Obligations.StepRunsTheDecodedLine : Prop :=
  ∀ s : State, s.params.wf = true → s.script ≠ [] →
    (∀ i rest, decode s.script = .instr i rest → step s = exec i { s with script := rest }) ∧
    (∀ e, decode s.script = .reject e → step s = .refused (.undecodableLine e))

/-- No state is stuck (60_exceptions.md section 6): with no line waiting, the step of a launched configuration fires one of
the enabled steps of that state and answers a next state, whatever the schedule's free choice. That the choice is drawn so
is the model's (log 3). -/
def Obligations.StepWithoutScriptFiresAnEnabledStep : Prop :=
  ∀ s : State, s.params.wf = true → s.script = [] →
    ∃ i t, isStep i = true ∧ Enabled i s ∧ exec i { s with tick := s.tick + 1 } = .next t ∧ step s = .next t

/-- The list the schedule draws from holds exactly the steps that are enabled (R71, R135; the LOOKUP rows are no steps). -/
def Obligations.EnabledStepsAreListedExactly : Prop :=
  ∀ (s : State) (i : Instr), i ∈ enabledSteps s ↔ isStep i = true ∧ Enabled i s

/-- R71: the steps that each control vector enables, that no two DISP steps are enabled together, and which control vectors
are reachable. -/
def Obligations.ControlVectorSelectsTheEnabledSteps : Prop :=
  (∀ s : State,
    (Enabled .dispatchSample s ↔ ctl s = 0b010#3) ∧
    (Enabled .dispatchCommit s ↔ ctl s = 0b001#3 ∨ ctl s = 0b011#3) ∧
    Enabled .reset s ∧
    (Enabled .release s ↔ ctl s = 0b100#3 ∨ ctl s = 0b101#3 ∨ ctl s = 0b110#3 ∨ ctl s = 0b111#3) ∧
    (∀ v, Enabled (.edge v) s ↔ v ≠ s.hallIn) ∧
    Enabled .snapshot s ∧
    ¬(Enabled .dispatchSample s ∧ Enabled .dispatchCommit s)) ∧
  (∀ p s, Reachable p s → ctl s ≠ 0b101#3 ∧ ctl s ≠ 0b110#3 ∧ ctl s ≠ 0b111#3) ∧
  (∀ c ∈ [0b000#3, 0b001#3, 0b010#3, 0b011#3, 0b100#3], ∃ s, Reachable Params.default s ∧ ctl s = c)

/-- Every step of the control format is enabled only where the control vector matches its opcode-table row, and for every
such step but EDGE exactly there (opcode_table.json; EDGE has the further guard on its operand). -/
def Obligations.OpcodeRowsAreTheGuards : Prop :=
  ∀ (i : Instr) (s : State), i.row.format = .control →
    (Enabled i s → i.row.accepts (ctl s) = true) ∧
    ((∀ v, i ≠ .edge v) → i.row.accepts (ctl s) = true → Enabled i s)

/-- Decoding an encoded instruction gives it back, with whatever bytes follow, for every instruction and operand; and every
byte that decodes agrees with the encoding of what it decodes to on the row's selector and on the row's mask (log 2). -/
def Obligations.DecodeAndEncodeAgree : Prop :=
  (∀ (i : Instr) (rest : List Byte), i.wf = true → decode (encode i ++ rest) = .instr i rest) ∧
  (∀ (b : Byte) (rest : List Byte) (i : Instr) (rest' : List Byte), decode (b :: rest) = .instr i rest' →
    rest' = rest ∧ b >>> 3 = encodeByte i >>> 3 ∧
      b.extractLsb' 0 3 &&& i.row.mask = (encodeByte i).extractLsb' 0 3 &&& i.row.mask ∧
      ∀ v, i = .edge v → b = encodeByte i)

/-- Words of each family, written out from the table's match and operand bits, decode to what they stand for (logs 1 and 2). -/
def Obligations.SampleWordsDecode : Prop :=
  decodeTableWord 8 0b001 = some .lookup1 ∧ decodeTableWord 8 0b111 = some .lookup7 ∧
  decode [0b00001101#8] = .instr (.edge 0b101#3) [] ∧ decode [0b00010010#8] = .instr .dispatchSample [] ∧
  decode [0b00011001#8] = .instr .dispatchCommit [] ∧ decode [0b00110100#8] = .instr .release [] ∧
  decode [0b00010011#8] = .reject (.rowBits "DISPATCH_SAMPLE")

/-- The bytes of a script, run by the machine, are the script's steps run one after another: each pseudo-step as its
expansion (30_encoding.md section 7), and a refused line ends the run. Bytes are the model's choice (logs 2 and 3). -/
def Obligations.ScriptRunsAsItsExpansion : Prop :=
  ∀ (ls : List ScriptLine) (s : State), s.params.wf = true → s.script = assemble ls →
    Sys2Proof.core.run (expandAll ls).length s = runSteps (expandAll ls) { s with script := [] }

/-! ### Frames -/

/-- R114: EDGE changes no output and records nothing; it changes only the lines and pend. -/
def Obligations.EdgeChangesNoOutput : Prop :=
  ∀ (v : HallLevels) (s t : State), exec (.edge v) s = .next t →
    t.gate = s.gate ∧ t.diagIndex = s.diagIndex ∧ t.diagPattern = s.diagPattern ∧ t.history = s.history ∧
    t.phase = s.phase ∧ t.idxLatch = s.idxLatch ∧ t.inReset = s.inReset ∧ t.params = s.params ∧
    t.returned = s.returned ∧ t.script = s.script ∧ t.tick = s.tick

/-- Frame of the Dispatcher's steps: DISPATCH_SAMPLE leaves all but idx_latch, pend and phase; DISPATCH_COMMIT leaves all but
gate, the pair, phase and the appended history. -/
def Obligations.DispatcherStepsFrame : Prop :=
  (∀ s t : State, exec .dispatchSample s = .next t →
    t.hallIn = s.hallIn ∧ t.gate = s.gate ∧ t.diagIndex = s.diagIndex ∧ t.diagPattern = s.diagPattern ∧
    t.inReset = s.inReset ∧ t.history = s.history ∧ t.params = s.params ∧ t.returned = s.returned ∧
    t.script = s.script ∧ t.tick = s.tick) ∧
  (∀ s t : State, exec .dispatchCommit s = .next t →
    t.hallIn = s.hallIn ∧ t.pend = s.pend ∧ t.idxLatch = s.idxLatch ∧ t.inReset = s.inReset ∧
    (∃ es, t.history = s.history ++ es) ∧ t.params = s.params ∧ t.returned = s.returned ∧
    t.script = s.script ∧ t.tick = s.tick)

/-- Frame of the reading operations: SNAPSHOT and the LOOKUP rows change no field of the core; SNAPSHOT alone adds to the
history; MAIN writes nothing (43_dispatcher.md section 4). -/
def Obligations.ReadingOperationsFrame : Prop :=
  ∀ (i : Instr) (s t : State), i = .snapshot ∨ i.row.format = .index → exec i s = .next t →
    t.hallIn = s.hallIn ∧ t.gate = s.gate ∧ t.pend = s.pend ∧ t.phase = s.phase ∧ t.idxLatch = s.idxLatch ∧
    t.diagIndex = s.diagIndex ∧ t.diagPattern = s.diagPattern ∧ t.inReset = s.inReset ∧ t.params = s.params ∧
    t.script = s.script ∧ t.tick = s.tick ∧ (i ≠ .snapshot → t.history = s.history)

/-- Frame of RST's steps: RESET leaves the lines and the parameters and keeps the earlier history; RELEASE leaves all but
in_reset and pend. -/
def Obligations.ResetStepsFrame : Prop :=
  (∀ s t : State, exec .reset s = .next t →
    t.hallIn = s.hallIn ∧ t.params = s.params ∧ (∃ es, t.history = s.history ++ es) ∧ t.returned = s.returned ∧
    t.script = s.script ∧ t.tick = s.tick) ∧
  (∀ s t : State, exec .release s = .next t →
    t.hallIn = s.hallIn ∧ t.gate = s.gate ∧ t.phase = s.phase ∧ t.idxLatch = s.idxLatch ∧ t.diagIndex = s.diagIndex ∧
    t.diagPattern = s.diagPattern ∧ t.history = s.history ∧ t.params = s.params ∧ t.returned = s.returned ∧
    t.script = s.script ∧ t.tick = s.tick)

/-! ### Rules over every instruction -/

/-- Each field has only the writers that the table of 10_state.md section 1 lists, whatever the state. -/
def Obligations.FieldsHaveOnlyTheirListedWriters : Prop :=
  ∀ (i : Instr) (s t : State), exec i s = .next t →
    (t.hallIn ≠ s.hallIn → ∃ v, i = .edge v) ∧
    (t.gate ≠ s.gate → i = .dispatchCommit ∨ i = .reset) ∧
    (t.pend ≠ s.pend → (∃ v, i = .edge v) ∨ i = .dispatchSample ∨ i = .reset ∨ i = .release) ∧
    (t.phase ≠ s.phase → i = .dispatchSample ∨ i = .dispatchCommit ∨ i = .reset) ∧
    (t.idxLatch ≠ s.idxLatch → i = .dispatchSample ∨ i = .reset) ∧
    (t.diagIndex ≠ s.diagIndex ∨ t.diagPattern ≠ s.diagPattern → i = .dispatchCommit ∨ i = .reset) ∧
    (t.inReset ≠ s.inReset → i = .reset ∨ i = .release) ∧
    (t.history ≠ s.history → i = .dispatchCommit ∨ i = .reset ∨ i = .snapshot)

/-- R162, R25: no step writes the table or any other parameter: neither exec of any instruction nor the machine's step. -/
def Obligations.ParametersNeverChange : Prop :=
  (∀ (i : Instr) (s t : State), exec i s = .next t → t.params = s.params) ∧
  (∀ s t : State, step s = .next t → t.params = s.params)

/-- R16: the history is append-only, it receives exactly the records R16 names, and no instruction reads it: from the same
state with another history, every instruction does the same and appends the same. -/
def Obligations.HistoryIsAppendOnlyAndUnread : Prop :=
  ∀ (i : Instr) (s : State),
    (∀ t, exec i s = .next t → t.history = s.history ++ recordsOf i s) ∧
    (∀ (h : List Event) t, exec i s = .next t →
      exec i { s with history := h } = .next { t with history := h ++ recordsOf i s }) ∧
    (∀ (h : List Event) r, exec i s = .refused r → exec i { s with history := h } = .refused r)

/-- The diagnostic pair does not reach the outputs (10_state.md section 6): two states that differ only in the pair, the
history and the returned value take every instruction alike, and agree on every other field after it. -/
def Obligations.DiagnosticsDoNotReachTheOutputs : Prop :=
  ∀ (i : Instr) (s : State) (di : PosIndex) (dp : Pattern) (h : List Event) (x : Option Returned),
    (∀ t, exec i s = .next t →
      ∃ t', exec i { s with diagIndex := di, diagPattern := dp, history := h, returned := x } = .next t' ∧
        { t' with diagIndex := t.diagIndex, diagPattern := t.diagPattern, history := t.history, returned := t.returned } = t) ∧
    (∀ r, exec i s = .refused r →
      exec i { s with diagIndex := di, diagPattern := dp, history := h, returned := x } = .refused r)

/-- PIN_MAP has no effect on any instruction (30_encoding.md section 3: none of the rules depends on it). -/
def Obligations.PinMapHasNoEffect : Prop :=
  ∀ (i : Instr) (s : State) (m : Option PinMap),
    (∀ t, exec i s = .next t →
      exec i { s with params := { s.params with pinMap := m } } = .next { t with params := { t.params with pinMap := m } }) ∧
    (∀ r, exec i s = .refused r → exec i { s with params := { s.params with pinMap := m } } = .refused r)

/-- R106: a commit puts the encoded row of its index on all six lines in its one step; after any instruction the lines are
those before it, SAFE, or the encoding of a table row, so in every reachable state they are SAFE or a row's encoding. -/
def Obligations.OnlyRowsOrSafeAreDriven : Prop :=
  (∀ s t : State, exec .dispatchCommit s = .next t →
    t.gate = encodeGates (tableRow s.params.commTable s.idxLatch)) ∧
  (∀ (i : Instr) (s t : State), exec i s = .next t →
    t.gate = s.gate ∨ t.gate = 0x15#6 ∨ ∃ k : PosIndex, t.gate = encodeGates (tableRow s.params.commTable k)) ∧
  (∀ p s, Reachable p s → s.gate = 0x15#6 ∨ ∃ k : PosIndex, s.gate = encodeGates (tableRow p.commTable k))

/-! ### Invariants -/

/-- The invariant (R35, R37, R38, R40) is kept by every step of the machine and by every instruction, from every state that
meets it. -/
def Obligations.EveryStepKeepsTheInvariant : Prop :=
  (∀ s t : State, Inv s → step s = .next t → Inv t) ∧
  (∀ (i : Instr) (s t : State), Inv s → exec i s = .next t → Inv t)

/-- A step of the machine from a reachable state reaches a reachable state, whether it runs a line or a free choice. -/
def Obligations.StepStaysReachable : Prop :=
  ∀ (p : Params) (s t : State), Reachable p s → step s = .next t → Reachable p t

/-- R37, for every configuration that obeys R88 and R89: the diagnostic pattern is the row of the diagnostic index. -/
def Obligations.ReachablePairIsATableRow : Prop :=
  ∀ (p : Params) (s : State), Reachable p s → s.diagPattern = tableRow p.commTable s.diagIndex

/-- R38: the lines carry the encoding of the diagnostic pattern, in every reachable state of every launched configuration. -/
def Obligations.ReachableLinesCarryTheLastPattern : Prop :=
  ∀ (p : Params) (s : State), Reachable p s → s.gate = encodeGates s.diagPattern

/-- R39: no reachable state of any launched configuration commands shoot-through: the decoded lines enable no phase's high
side and low side together. -/
def Obligations.NoReachableShootThrough : Prop :=
  ∀ (p : Params) (s : State), Reachable p s →
    ∀ l : Leg, ¬((decodeGates s.gate).getLsbD (2 * legNumber l) = true ∧ (decodeGates s.gate).getLsbD (2 * legNumber l + 1) = true)

/-- R40: in every reachable state, SAMPLED implies that reset is not asserted. -/
def Obligations.ReachableSampledIsOutOfReset : Prop :=
  ∀ (p : Params) (s : State), Reachable p s → s.phase = .sampled → s.inReset = false

/-- R41: a quiescent reachable state in which a commit has happened since the last RESET outputs the pattern of the lines as
they stand. With INITIAL_DISPATCH true the premise on the commit always holds; with it false, a quiescent reachable state
with no commit since the last RESET has diag_index 0 and SAFE lines. -/
def Obligations.QuiescentCoreOutputsTheCurrentLines : Prop :=
  ∀ (p : Params) (s : State), Reachable p s → Quiescent s →
    (committedSinceReset s.history = true →
      s.diagIndex = pack s.hallIn ∧ s.gate = encodeGates (tableRow p.commTable (pack s.hallIn))) ∧
    (p.initialDispatch = true → committedSinceReset s.history = true) ∧
    (committedSinceReset s.history = false → s.diagIndex = 0#3 ∧ s.gate = 0x15#6)

/-- R129: from every reachable state SNAPSHOT answers, and the word it records pairs an index with that index's row. -/
def Obligations.SnapshotPairIsConsistent : Prop :=
  ∀ (p : Params) (s : State), Reachable p s →
    ∃ t w, exec .snapshot s = .next t ∧ t.history = s.history ++ [.snap w] ∧
      w.extractLsb' 0 6 = tableRow p.commTable (w.extractLsb' 6 3)

/-- What a history guarantees (20_memory.md section 5): the lines and the pair are those of its last commit or reset; every
Hook follows its Commit; every Commit and Snap is consistent with the table; every ResetOut is SAFE. That a history has a last
reset at launch, so that both are some from there on, is the model's reading: the launch history holds the RESET's record
(log 11, DEDUCED). -/
def Obligations.HistoryTellsTheOutputs : Prop :=
  ∀ (p : Params) (s : State), Reachable p s →
    lastGate s.history = some s.gate ∧ lastPair s.history = some (s.diagIndex, s.diagPattern) ∧
    historyOk p.commTable s.history = true

/-- R157: while in reset, DISP is disabled, an edge moves the lines and sets nothing pending, a snapshot returns 0x000 and the
lines hold SAFE. -/
def Obligations.ResetHoldsOffDispatchAndEdges : Prop :=
  ∀ (p : Params) (s : State), Reachable p s → s.inReset = true →
    ¬Enabled .dispatchSample s ∧ ¬Enabled .dispatchCommit s ∧
    (∀ v, v ≠ s.hallIn → ∃ t, exec (.edge v) s = .next t ∧ t.hallIn = v ∧ t.pend = false) ∧
    (∃ t, exec .snapshot s = .next t ∧ t.history = s.history ++ [.snap 0x000#9]) ∧
    s.gate = 0x15#6

/-! ### Dispatches -/

/-- R115: out of reset, any number of EDGE steps leave what the last alone would leave, the lines at its value and pend set;
one dispatch then samples the lines as they stand, and with no further edge no second dispatch can start. -/
def Obligations.EdgesCoalesceIntoOneDispatch : Prop :=
  ∀ (v : HallLevels) (vs : List HallLevels) (s t : State), s.inReset = false →
    runSteps ((v :: vs).map .edge) s = .next t →
    t = { s with hallIn := (v :: vs).getLast (List.cons_ne_nil v vs), pend := true } ∧
    (s.phase = .idle → ∃ a b, exec .dispatchSample t = .next a ∧ a.idxLatch = pack t.hallIn ∧
      exec .dispatchCommit a = .next b ∧ ¬Enabled .dispatchSample b)

/-- A dispatch in progress is disturbed by nothing but RESET, and a DISP step stays enabled until it fires or a RESET comes
(43_dispatcher.md section 2, 60_exceptions.md section 6). -/
def Obligations.OnlyResetDisturbsADispatch : Prop :=
  ∀ (i : Instr) (s t : State), exec i s = .next t → i ≠ .reset →
    (s.inReset = false → s.phase = .sampled → i ≠ .dispatchCommit →
      t.phase = .sampled ∧ t.idxLatch = s.idxLatch ∧ i ≠ .dispatchSample ∧ Enabled .dispatchCommit t) ∧
    (Enabled .dispatchSample s → i ≠ .dispatchSample → Enabled .dispatchSample t)

/-- R124: in SAMPLED no dispatch starts; an edge during a dispatch sets pend, the commit leaves it set, and a new dispatch is
enabled after it. -/
def Obligations.DispatchesDoNotNest : Prop :=
  ∀ s : State, s.phase = .sampled →
    exec .dispatchSample s = .refused (.guardFails "DISPATCH_SAMPLE") ∧
    (s.inReset = false → ∀ v, v ≠ s.hallIn →
      ∃ a b, exec (.edge v) s = .next a ∧ a.pend = true ∧ a.gate = s.gate ∧
        exec .dispatchCommit a = .next b ∧ b.pend = true ∧ Enabled .dispatchSample b)

/-- R121: an edge between a sample and its commit leaves the commit to write the latched index's pattern, which is safe; the
only DISP step after it is a sample of the new lines, and its commit leaves the core quiescent on them. -/
def Obligations.StaleCommitIsFollowedByAFreshDispatch : Prop :=
  ∀ (s : State) (v : HallLevels), s.params.wf = true → s.inReset = false → s.pend = true → s.phase = .idle →
    v ≠ s.hallIn →
    ∃ a b c d e, exec .dispatchSample s = .next a ∧ exec (.edge v) a = .next b ∧ exec .dispatchCommit b = .next c ∧
      c.diagIndex = pack s.hallIn ∧ c.gate = encodeGates (tableRow s.params.commTable (pack s.hallIn)) ∧
      commandsShootThrough c.gate = false ∧ ¬Enabled .dispatchCommit c ∧
      exec .dispatchSample c = .next d ∧ exec .dispatchCommit d = .next e ∧ Quiescent e ∧ e.diagIndex = pack v ∧
      e.gate = encodeGates (tableRow s.params.commTable (pack v))

/-- R123, R134: lines that read 0b000 or 0b111 when sampled make the dispatch commit all-off and drive SAFE, recorded as for
any index; nothing is raised, and the next edge makes a dispatch pending as usual. -/
def Obligations.InvalidIndexCommitsAllOff : Prop :=
  ∀ s : State, s.params.wf = true → s.inReset = false → s.pend = true → s.phase = .idle →
    s.hallIn = 0b000#3 ∨ s.hallIn = 0b111#3 →
    ∃ a b, exec .dispatchSample s = .next a ∧ exec .dispatchCommit a = .next b ∧
      b.gate = 0x15#6 ∧ b.diagIndex = s.hallIn ∧ b.diagPattern = 0#6 ∧
      b.history = s.history ++ [.commit s.hallIn 0#6 0x15#6, .hook s.hallIn 0#6] ∧
      b.pend = false ∧ b.phase = .idle ∧ b.inReset = false ∧
      ∀ v, v ≠ b.hallIn → ∃ c, exec (.edge v) b = .next c ∧ Enabled .dispatchSample c

/-- R132: two dispatches of the same lines, with only edges and readings between them, commit the same index, pattern and
gate vector, and the second leaves the gate lines as they were. -/
def Obligations.RepeatedDispatchIsIdempotent : Prop :=
  ∀ (s b c d : State) (is : List Instr),
    runSteps [.dispatchSample, .dispatchCommit] s = .next b →
    (∀ i ∈ is, (∃ v, i = .edge v) ∨ i = .snapshot) →
    runSteps is b = .next c → c.hallIn = s.hallIn →
    runSteps [.dispatchSample, .dispatchCommit] c = .next d →
    d.diagIndex = b.diagIndex ∧ d.diagPattern = b.diagPattern ∧ d.gate = b.gate ∧ d.gate = c.gate

/-- R133: from a state quiescent at index 1 with the default table, the forward sequence of edges, each followed by its
dispatch, makes six commits of the six documented gate vectors, each safe, and no sample reads 0 or 7. -/
def Obligations.ForwardRotationMakesSixCommits : Prop :=
  ∀ s : State, s.params.commTable = defaultTable → Quiescent s → s.hallIn = 1#3 → s.gate = 0x34#6 →
    ∃ t, runSteps (expandAll [.hall 5#3, .hall 4#3, .hall 6#3, .hall 2#3, .hall 3#3, .hall 1#3]) s = .next t ∧
      t.history = s.history ++
        [.commit 5#3 0x09#6 0x1C#6, .hook 5#3 0x09#6, .commit 4#3 0x18#6 0x0D#6, .hook 4#3 0x18#6,
          .commit 6#3 0x12#6 0x07#6, .hook 6#3 0x12#6, .commit 2#3 0x06#6 0x13#6, .hook 2#3 0x06#6,
          .commit 3#3 0x24#6 0x31#6, .hook 3#3 0x24#6, .commit 1#3 0x21#6 0x34#6, .hook 1#3 0x21#6] ∧
      t.gate = 0x34#6 ∧ Quiescent t ∧
      ∀ g ∈ [0x1C#6, 0x0D#6, 0x07#6, 0x13#6, 0x31#6, 0x34#6], commandsShootThrough g = false

/-- R168: with the default table a commit swaps a phase's complementary switches exactly when the previous and the new index
are both valid and differ in two or three lines; that is 18 of the 30 ordered pairs of distinct valid indices. From 1 to 2
phase A is swapped, and from 1 to 6 phases A and C. -/
def Obligations.ComplementarySwapsNeedTwoLineChanges : Prop :=
  (∀ s t : State, Inv s → s.params.commTable = defaultTable → exec .dispatchCommit s = .next t →
    (swapsComplements s.gate t.gate = true ↔
      isValidIndex s.diagIndex = true ∧ isValidIndex t.diagIndex = true ∧ 2 ≤ linesChanged s.diagIndex t.diagIndex)) ∧
  ((allIndices.product allIndices).filter fun x =>
      isValidIndex x.1 && isValidIndex x.2 && decide (x.1 ≠ x.2) && decide (2 ≤ linesChanged x.1 x.2)).length = 18 ∧
  ((allIndices.product allIndices).filter fun x =>
      isValidIndex x.1 && isValidIndex x.2 && decide (x.1 ≠ x.2)).length = 30 ∧
  (∀ s t : State, Inv s → s.params.commTable = defaultTable → s.diagIndex = 1#3 → exec .dispatchCommit s = .next t →
    (t.diagIndex = 2#3 → swapsLeg s.gate t.gate .a = true) ∧
    (t.diagIndex = 6#3 → swapsLeg s.gate t.gate .a = true ∧ swapsLeg s.gate t.gate .c = true))

/-- R159: from RELEASE until the first commit the lines hold SAFE; with INITIAL_DISPATCH false no commit comes before an edge;
with it true the first dispatch, without an edge, commits the pattern of the lines. -/
def Obligations.LinesHoldSafeUntilTheFirstCommit : Prop :=
  ∀ (p : Params) (s t : State), Reachable p s → exec .release s = .next t →
    (∀ (is : List Instr) (u : State), runSteps is t = .next u →
      (.dispatchCommit ∉ is → u.gate = 0x15#6) ∧
      (p.initialDispatch = false → (∀ v, .edge v ∉ is) → .dispatchCommit ∉ is)) ∧
    (p.initialDispatch = true →
      ∃ a b, exec .dispatchSample t = .next a ∧ exec .dispatchCommit a = .next b ∧
        b.gate = encodeGates (tableRow p.commTable (pack t.hallIn)))

/-- RESET takes effect over everything (60_exceptions.md section 2): from any state it answers, abandons a dispatch without a
Commit or Hook record, and leaves no DISP step enabled, whatever edges come before RELEASE. -/
def Obligations.ResetAbandonsEverything : Prop :=
  ∀ (s : State) (vs : List HallLevels) (u : State),
    ∃ t, exec .reset s = .next t ∧ t.history = s.history ++ [.resetOut 0x15#6] ∧
      (runSteps (vs.map .edge) t = .next u →
        u.pend = false ∧ u.gate = 0x15#6 ∧ u.history = t.history ∧
        ¬Enabled .dispatchSample u ∧ ¬Enabled .dispatchCommit u)

/-- The order of a SNAPSHOT and a DISP step does not matter but for the pair returned (60_exceptions.md section 2). -/
def Obligations.SnapshotCommutesWithDispatch : Prop :=
  ∀ (i : Instr) (s t : State), i = .dispatchSample ∨ i = .dispatchCommit → exec i s = .next t →
    ∃ a b c, exec .snapshot s = .next a ∧ exec i a = .next b ∧ exec .snapshot t = .next c ∧
      { b with history := c.history, returned := c.returned } = c

/-- Progress under weak fairness (R131): in a weakly fair run in which, from some point out of reset, ENV leaves the lines
alone and RST does not reset, the core becomes quiescent and stays so, and if an edge was pending at that point the lines
end at the pattern of the sensor state. -/
def Obligations.FairRunsReachQuiescence : Prop :=
  ∀ (st : Nat → State) (lab : Nat → Instr) (n : Nat),
    IsRun st lab → WeaklyFair st lab → QuietFrom lab n → (st n).inReset = false →
    ∃ m, n ≤ m ∧ ∀ k, m ≤ k →
      Quiescent (st k) ∧ (st k).hallIn = (st n).hallIn ∧
      ((st n).pend = true →
        (st k).diagIndex = pack (st n).hallIn ∧
        (st k).gate = encodeGates (tableRow (st n).params.commTable (pack (st n).hallIn)))

/-- On a board with an injective PIN_MAP, each pin carries the level of the one line placed on it: gate lines as the gate
register drives them, Hall lines as they stand (30_encoding.md section 3; pins as Nats are the model's choice, log 9). -/
def Obligations.EachPinCarriesItsLine : Prop :=
  ∀ (s : State) (m : PinMap), s.params.wf = true → s.params.pinMap = some m →
    ∃ ls, boardLevels s = some ls ∧ ls.length = 9 ∧
      ∀ (l : Line) (b : Bool), (pinOf m l, b) ∈ ls ↔ b = lineLevel s l
end

