-- ==== Sys2Proof/Laws/Patterns.lean ====
section
/-! SUPPORT. What the combinational functions do: polarity, words, the table's checks. -/

namespace Sys2Proof.Machine

@[simp] theorem sensorBit_a : sensorBit .a = 0 := rfl
@[simp] theorem sensorBit_b : sensorBit .b = 1 := rfl
@[simp] theorem sensorBit_c : sensorBit .c = 2 := rfl

@[simp] theorem pack_eq (v : HallLevels) : pack v = v := rfl

@[simp] theorem wordIndex_pairWord (i : PosIndex) (p : Pattern) : wordIndex (pairWord i p) = i := by
  revert i p; decide

@[simp] theorem wordPattern_pairWord (i : PosIndex) (p : Pattern) : wordPattern (pairWord i p) = p := by
  revert i p; decide

/-- ENCODE turns a switch on exactly where the pattern enables it. -/
theorem switchedOn_encodeGates (p : Pattern) (w : Switch) :
    switchedOn (encodeGates p) w = p.getLsbD (switchBit w) := by
  revert p; cases w <;> decide

/-- SAFE is the encoding of OFF (R67). -/
@[simp] theorem encodeGates_off : encodeGates off = safeGates := by decide

/-- Shoot-through on the lines of a pattern is the pattern's being unsafe. -/
theorem commandsShootThrough_encodeGates (p : Pattern) : commandsShootThrough (encodeGates p) = !isSafe p := by
  revert p; decide

theorem mem_allIndices (i : PosIndex) : i ∈ allIndices := by revert i; decide

/-- A conducting pattern is safe. -/
theorem isSafe_of_isConducting {p : Pattern} (h : isConducting p = true) : isSafe p = true := by
  simp only [isConducting, Bool.and_eq_true] at h
  exact h.1

end Sys2Proof.Machine

namespace Sys2Proof

/-- A configuration that may be launched has a safe table. -/
theorem Params.wf_row_safe {p : Params} (h : p.wf = true) (i : PosIndex) :
    Machine.isSafe (Machine.tableRow p.commTable i) = true := by
  simp only [Params.wf, Bool.and_eq_true, Machine.tableIsSafe, List.all_eq_true] at h
  exact h.1.1 i (Machine.mem_allIndices i)

/-- A configuration that may be launched has OFF in its invalid rows. -/
theorem Params.wf_row_off {p : Params} (h : p.wf = true) {i : PosIndex} (hi : Machine.isValidIndex i = false) :
    Machine.tableRow p.commTable i = Machine.off := by
  simp only [Params.wf, Bool.and_eq_true, Machine.tableIsClassed, List.all_eq_true] at h
  simpa [hi] using h.1.2 i (Machine.mem_allIndices i)

/-- A configuration that may be launched has conducting patterns in its valid rows. -/
theorem Params.wf_row_conducting {p : Params} (h : p.wf = true) {i : PosIndex} (hi : Machine.isValidIndex i = true) :
    Machine.isConducting (Machine.tableRow p.commTable i) = true := by
  simp only [Params.wf, Bool.and_eq_true, Machine.tableIsClassed, List.all_eq_true] at h
  simpa [hi] using h.1.2 i (Machine.mem_allIndices i)

theorem Params.wf_row_zero {p : Params} (h : p.wf = true) : Machine.tableRow p.commTable 0#3 = Machine.off :=
  Params.wf_row_off h rfl

theorem Params.wf_row_seven {p : Params} (h : p.wf = true) : Machine.tableRow p.commTable 7#3 = Machine.off :=
  Params.wf_row_off h rfl

end Sys2Proof
end

