-- ==== Sys2Proof/Laws/State.lean ====
section
/-! SUPPORT. One lemma per field per update of State (R13: state an update does not name is unchanged). -/

namespace Sys2Proof.Machine

/-! ### outWrite -/

@[simp] theorem outWrite_hallIn (v : Gates) (s : State) : (outWrite v s).hallIn = s.hallIn := rfl
@[simp] theorem outWrite_gate (v : Gates) (s : State) : (outWrite v s).gate = v := rfl
@[simp] theorem outWrite_pend (v : Gates) (s : State) : (outWrite v s).pend = s.pend := rfl
@[simp] theorem outWrite_phase (v : Gates) (s : State) : (outWrite v s).phase = s.phase := rfl
@[simp] theorem outWrite_idxLatch (v : Gates) (s : State) : (outWrite v s).idxLatch = s.idxLatch := rfl
@[simp] theorem outWrite_diagIndex (v : Gates) (s : State) : (outWrite v s).diagIndex = s.diagIndex := rfl
@[simp] theorem outWrite_diagPattern (v : Gates) (s : State) : (outWrite v s).diagPattern = s.diagPattern := rfl
@[simp] theorem outWrite_inReset (v : Gates) (s : State) : (outWrite v s).inReset = s.inReset := rfl
@[simp] theorem outWrite_history (v : Gates) (s : State) : (outWrite v s).history = s.history := rfl
@[simp] theorem outWrite_params (v : Gates) (s : State) : (outWrite v s).params = s.params := rfl
@[simp] theorem outWrite_returned (v : Gates) (s : State) : (outWrite v s).returned = s.returned := rfl
@[simp] theorem outWrite_script (v : Gates) (s : State) : (outWrite v s).script = s.script := rfl
@[simp] theorem outWrite_tick (v : Gates) (s : State) : (outWrite v s).tick = s.tick := rfl

/-! ### commitPattern -/

@[simp] theorem commitPattern_hallIn (p : Pattern) (s : State) : (commitPattern p s).hallIn = s.hallIn := rfl
@[simp] theorem commitPattern_gate (p : Pattern) (s : State) : (commitPattern p s).gate = encodeGates p := rfl
@[simp] theorem commitPattern_pend (p : Pattern) (s : State) : (commitPattern p s).pend = s.pend := rfl
@[simp] theorem commitPattern_phase (p : Pattern) (s : State) : (commitPattern p s).phase = s.phase := rfl
@[simp] theorem commitPattern_idxLatch (p : Pattern) (s : State) : (commitPattern p s).idxLatch = s.idxLatch := rfl
@[simp] theorem commitPattern_diagIndex (p : Pattern) (s : State) : (commitPattern p s).diagIndex = s.diagIndex := rfl
@[simp] theorem commitPattern_diagPattern (p : Pattern) (s : State) : (commitPattern p s).diagPattern = s.diagPattern := rfl
@[simp] theorem commitPattern_inReset (p : Pattern) (s : State) : (commitPattern p s).inReset = s.inReset := rfl
@[simp] theorem commitPattern_history (p : Pattern) (s : State) : (commitPattern p s).history = s.history := rfl
@[simp] theorem commitPattern_params (p : Pattern) (s : State) : (commitPattern p s).params = s.params := rfl
@[simp] theorem commitPattern_returned (p : Pattern) (s : State) : (commitPattern p s).returned = s.returned := rfl
@[simp] theorem commitPattern_script (p : Pattern) (s : State) : (commitPattern p s).script = s.script := rfl
@[simp] theorem commitPattern_tick (p : Pattern) (s : State) : (commitPattern p s).tick = s.tick := rfl

/-! ### record -/

@[simp] theorem record_hallIn (es : List Event) (s : State) : (record es s).hallIn = s.hallIn := rfl
@[simp] theorem record_gate (es : List Event) (s : State) : (record es s).gate = s.gate := rfl
@[simp] theorem record_pend (es : List Event) (s : State) : (record es s).pend = s.pend := rfl
@[simp] theorem record_phase (es : List Event) (s : State) : (record es s).phase = s.phase := rfl
@[simp] theorem record_idxLatch (es : List Event) (s : State) : (record es s).idxLatch = s.idxLatch := rfl
@[simp] theorem record_diagIndex (es : List Event) (s : State) : (record es s).diagIndex = s.diagIndex := rfl
@[simp] theorem record_diagPattern (es : List Event) (s : State) : (record es s).diagPattern = s.diagPattern := rfl
@[simp] theorem record_inReset (es : List Event) (s : State) : (record es s).inReset = s.inReset := rfl
@[simp] theorem record_history (es : List Event) (s : State) : (record es s).history = s.history ++ es := rfl
@[simp] theorem record_params (es : List Event) (s : State) : (record es s).params = s.params := rfl
@[simp] theorem record_returned (es : List Event) (s : State) : (record es s).returned = s.returned := rfl
@[simp] theorem record_script (es : List Event) (s : State) : (record es s).script = s.script := rfl
@[simp] theorem record_tick (es : List Event) (s : State) : (record es s).tick = s.tick := rfl

/-! ### setPair -/

@[simp] theorem setPair_hallIn (i : PosIndex) (p : Pattern) (s : State) : (setPair i p s).hallIn = s.hallIn := rfl
@[simp] theorem setPair_gate (i : PosIndex) (p : Pattern) (s : State) : (setPair i p s).gate = s.gate := rfl
@[simp] theorem setPair_pend (i : PosIndex) (p : Pattern) (s : State) : (setPair i p s).pend = s.pend := rfl
@[simp] theorem setPair_phase (i : PosIndex) (p : Pattern) (s : State) : (setPair i p s).phase = s.phase := rfl
@[simp] theorem setPair_idxLatch (i : PosIndex) (p : Pattern) (s : State) : (setPair i p s).idxLatch = s.idxLatch := rfl
@[simp] theorem setPair_diagIndex (i : PosIndex) (p : Pattern) (s : State) : (setPair i p s).diagIndex = i := rfl
@[simp] theorem setPair_diagPattern (i : PosIndex) (p : Pattern) (s : State) : (setPair i p s).diagPattern = p := rfl
@[simp] theorem setPair_inReset (i : PosIndex) (p : Pattern) (s : State) : (setPair i p s).inReset = s.inReset := rfl
@[simp] theorem setPair_history (i : PosIndex) (p : Pattern) (s : State) : (setPair i p s).history = s.history := rfl
@[simp] theorem setPair_params (i : PosIndex) (p : Pattern) (s : State) : (setPair i p s).params = s.params := rfl
@[simp] theorem setPair_returned (i : PosIndex) (p : Pattern) (s : State) : (setPair i p s).returned = s.returned := rfl
@[simp] theorem setPair_script (i : PosIndex) (p : Pattern) (s : State) : (setPair i p s).script = s.script := rfl
@[simp] theorem setPair_tick (i : PosIndex) (p : Pattern) (s : State) : (setPair i p s).tick = s.tick := rfl

/-! ### answer -/

@[simp] theorem answer_hallIn (r : Returned) (s : State) : (answer r s).hallIn = s.hallIn := rfl
@[simp] theorem answer_gate (r : Returned) (s : State) : (answer r s).gate = s.gate := rfl
@[simp] theorem answer_pend (r : Returned) (s : State) : (answer r s).pend = s.pend := rfl
@[simp] theorem answer_phase (r : Returned) (s : State) : (answer r s).phase = s.phase := rfl
@[simp] theorem answer_idxLatch (r : Returned) (s : State) : (answer r s).idxLatch = s.idxLatch := rfl
@[simp] theorem answer_diagIndex (r : Returned) (s : State) : (answer r s).diagIndex = s.diagIndex := rfl
@[simp] theorem answer_diagPattern (r : Returned) (s : State) : (answer r s).diagPattern = s.diagPattern := rfl
@[simp] theorem answer_inReset (r : Returned) (s : State) : (answer r s).inReset = s.inReset := rfl
@[simp] theorem answer_history (r : Returned) (s : State) : (answer r s).history = s.history := rfl
@[simp] theorem answer_params (r : Returned) (s : State) : (answer r s).params = s.params := rfl
@[simp] theorem answer_returned (r : Returned) (s : State) : (answer r s).returned = some r := rfl
@[simp] theorem answer_script (r : Returned) (s : State) : (answer r s).script = s.script := rfl
@[simp] theorem answer_tick (r : Returned) (s : State) : (answer r s).tick = s.tick := rfl

/-! ### enterDispatch -/

@[simp] theorem enterDispatch_hallIn (i : PosIndex) (s : State) : (enterDispatch i s).hallIn = s.hallIn := rfl
@[simp] theorem enterDispatch_gate (i : PosIndex) (s : State) : (enterDispatch i s).gate = s.gate := rfl
@[simp] theorem enterDispatch_pend (i : PosIndex) (s : State) : (enterDispatch i s).pend = false := rfl
@[simp] theorem enterDispatch_phase (i : PosIndex) (s : State) : (enterDispatch i s).phase = .sampled := rfl
@[simp] theorem enterDispatch_idxLatch (i : PosIndex) (s : State) : (enterDispatch i s).idxLatch = i := rfl
@[simp] theorem enterDispatch_diagIndex (i : PosIndex) (s : State) : (enterDispatch i s).diagIndex = s.diagIndex := rfl
@[simp] theorem enterDispatch_diagPattern (i : PosIndex) (s : State) : (enterDispatch i s).diagPattern = s.diagPattern := rfl
@[simp] theorem enterDispatch_inReset (i : PosIndex) (s : State) : (enterDispatch i s).inReset = s.inReset := rfl
@[simp] theorem enterDispatch_history (i : PosIndex) (s : State) : (enterDispatch i s).history = s.history := rfl
@[simp] theorem enterDispatch_params (i : PosIndex) (s : State) : (enterDispatch i s).params = s.params := rfl
@[simp] theorem enterDispatch_returned (i : PosIndex) (s : State) : (enterDispatch i s).returned = s.returned := rfl
@[simp] theorem enterDispatch_script (i : PosIndex) (s : State) : (enterDispatch i s).script = s.script := rfl
@[simp] theorem enterDispatch_tick (i : PosIndex) (s : State) : (enterDispatch i s).tick = s.tick := rfl

/-! ### leaveDispatch -/

@[simp] theorem leaveDispatch_hallIn (s : State) : (leaveDispatch s).hallIn = s.hallIn := rfl
@[simp] theorem leaveDispatch_gate (s : State) : (leaveDispatch s).gate = s.gate := rfl
@[simp] theorem leaveDispatch_pend (s : State) : (leaveDispatch s).pend = s.pend := rfl
@[simp] theorem leaveDispatch_phase (s : State) : (leaveDispatch s).phase = .idle := rfl
@[simp] theorem leaveDispatch_idxLatch (s : State) : (leaveDispatch s).idxLatch = s.idxLatch := rfl
@[simp] theorem leaveDispatch_diagIndex (s : State) : (leaveDispatch s).diagIndex = s.diagIndex := rfl
@[simp] theorem leaveDispatch_diagPattern (s : State) : (leaveDispatch s).diagPattern = s.diagPattern := rfl
@[simp] theorem leaveDispatch_inReset (s : State) : (leaveDispatch s).inReset = s.inReset := rfl
@[simp] theorem leaveDispatch_history (s : State) : (leaveDispatch s).history = s.history := rfl
@[simp] theorem leaveDispatch_params (s : State) : (leaveDispatch s).params = s.params := rfl
@[simp] theorem leaveDispatch_returned (s : State) : (leaveDispatch s).returned = s.returned := rfl
@[simp] theorem leaveDispatch_script (s : State) : (leaveDispatch s).script = s.script := rfl
@[simp] theorem leaveDispatch_tick (s : State) : (leaveDispatch s).tick = s.tick := rfl

/-! ### resetFields -/

@[simp] theorem resetFields_hallIn (s : State) : (resetFields s).hallIn = s.hallIn := rfl
@[simp] theorem resetFields_gate (s : State) : (resetFields s).gate = s.gate := rfl
@[simp] theorem resetFields_pend (s : State) : (resetFields s).pend = false := rfl
@[simp] theorem resetFields_phase (s : State) : (resetFields s).phase = .idle := rfl
@[simp] theorem resetFields_idxLatch (s : State) : (resetFields s).idxLatch = 0#3 := rfl
@[simp] theorem resetFields_diagIndex (s : State) : (resetFields s).diagIndex = 0#3 := rfl
@[simp] theorem resetFields_diagPattern (s : State) : (resetFields s).diagPattern = off := rfl
@[simp] theorem resetFields_inReset (s : State) : (resetFields s).inReset = true := rfl
@[simp] theorem resetFields_history (s : State) : (resetFields s).history = s.history := rfl
@[simp] theorem resetFields_params (s : State) : (resetFields s).params = s.params := rfl
@[simp] theorem resetFields_returned (s : State) : (resetFields s).returned = s.returned := rfl
@[simp] theorem resetFields_script (s : State) : (resetFields s).script = s.script := rfl
@[simp] theorem resetFields_tick (s : State) : (resetFields s).tick = s.tick := rfl

/-! ### releaseReset -/

@[simp] theorem releaseReset_hallIn (s : State) : (releaseReset s).hallIn = s.hallIn := rfl
@[simp] theorem releaseReset_gate (s : State) : (releaseReset s).gate = s.gate := rfl
@[simp] theorem releaseReset_pend (s : State) : (releaseReset s).pend = s.params.initialDispatch := rfl
@[simp] theorem releaseReset_phase (s : State) : (releaseReset s).phase = s.phase := rfl
@[simp] theorem releaseReset_idxLatch (s : State) : (releaseReset s).idxLatch = s.idxLatch := rfl
@[simp] theorem releaseReset_diagIndex (s : State) : (releaseReset s).diagIndex = s.diagIndex := rfl
@[simp] theorem releaseReset_diagPattern (s : State) : (releaseReset s).diagPattern = s.diagPattern := rfl
@[simp] theorem releaseReset_inReset (s : State) : (releaseReset s).inReset = false := rfl
@[simp] theorem releaseReset_history (s : State) : (releaseReset s).history = s.history := rfl
@[simp] theorem releaseReset_params (s : State) : (releaseReset s).params = s.params := rfl
@[simp] theorem releaseReset_returned (s : State) : (releaseReset s).returned = s.returned := rfl
@[simp] theorem releaseReset_script (s : State) : (releaseReset s).script = s.script := rfl
@[simp] theorem releaseReset_tick (s : State) : (releaseReset s).tick = s.tick := rfl

/-! ### afterDraw -/

@[simp] theorem afterDraw_hallIn (s : State) : (afterDraw s).hallIn = s.hallIn := rfl
@[simp] theorem afterDraw_gate (s : State) : (afterDraw s).gate = s.gate := rfl
@[simp] theorem afterDraw_pend (s : State) : (afterDraw s).pend = s.pend := rfl
@[simp] theorem afterDraw_phase (s : State) : (afterDraw s).phase = s.phase := rfl
@[simp] theorem afterDraw_idxLatch (s : State) : (afterDraw s).idxLatch = s.idxLatch := rfl
@[simp] theorem afterDraw_diagIndex (s : State) : (afterDraw s).diagIndex = s.diagIndex := rfl
@[simp] theorem afterDraw_diagPattern (s : State) : (afterDraw s).diagPattern = s.diagPattern := rfl
@[simp] theorem afterDraw_inReset (s : State) : (afterDraw s).inReset = s.inReset := rfl
@[simp] theorem afterDraw_history (s : State) : (afterDraw s).history = s.history := rfl
@[simp] theorem afterDraw_params (s : State) : (afterDraw s).params = s.params := rfl
@[simp] theorem afterDraw_returned (s : State) : (afterDraw s).returned = s.returned := rfl
@[simp] theorem afterDraw_script (s : State) : (afterDraw s).script = s.script := rfl
@[simp] theorem afterDraw_tick (s : State) : (afterDraw s).tick = s.tick + 1 := rfl

/-! ### afterLine -/

@[simp] theorem afterLine_hallIn (bs : List Byte) (s : State) : (afterLine bs s).hallIn = s.hallIn := rfl
@[simp] theorem afterLine_gate (bs : List Byte) (s : State) : (afterLine bs s).gate = s.gate := rfl
@[simp] theorem afterLine_pend (bs : List Byte) (s : State) : (afterLine bs s).pend = s.pend := rfl
@[simp] theorem afterLine_phase (bs : List Byte) (s : State) : (afterLine bs s).phase = s.phase := rfl
@[simp] theorem afterLine_idxLatch (bs : List Byte) (s : State) : (afterLine bs s).idxLatch = s.idxLatch := rfl
@[simp] theorem afterLine_diagIndex (bs : List Byte) (s : State) : (afterLine bs s).diagIndex = s.diagIndex := rfl
@[simp] theorem afterLine_diagPattern (bs : List Byte) (s : State) : (afterLine bs s).diagPattern = s.diagPattern := rfl
@[simp] theorem afterLine_inReset (bs : List Byte) (s : State) : (afterLine bs s).inReset = s.inReset := rfl
@[simp] theorem afterLine_history (bs : List Byte) (s : State) : (afterLine bs s).history = s.history := rfl
@[simp] theorem afterLine_params (bs : List Byte) (s : State) : (afterLine bs s).params = s.params := rfl
@[simp] theorem afterLine_returned (bs : List Byte) (s : State) : (afterLine bs s).returned = s.returned := rfl
@[simp] theorem afterLine_script (bs : List Byte) (s : State) : (afterLine bs s).script = bs := rfl
@[simp] theorem afterLine_tick (bs : List Byte) (s : State) : (afterLine bs s).tick = s.tick := rfl

/-! ### placeBytes -/

@[simp] theorem placeBytes_hallIn (bs : List Byte) (s : State) : (placeBytes bs s).hallIn = s.hallIn := rfl
@[simp] theorem placeBytes_gate (bs : List Byte) (s : State) : (placeBytes bs s).gate = s.gate := rfl
@[simp] theorem placeBytes_pend (bs : List Byte) (s : State) : (placeBytes bs s).pend = s.pend := rfl
@[simp] theorem placeBytes_phase (bs : List Byte) (s : State) : (placeBytes bs s).phase = s.phase := rfl
@[simp] theorem placeBytes_idxLatch (bs : List Byte) (s : State) : (placeBytes bs s).idxLatch = s.idxLatch := rfl
@[simp] theorem placeBytes_diagIndex (bs : List Byte) (s : State) : (placeBytes bs s).diagIndex = s.diagIndex := rfl
@[simp] theorem placeBytes_diagPattern (bs : List Byte) (s : State) : (placeBytes bs s).diagPattern = s.diagPattern := rfl
@[simp] theorem placeBytes_inReset (bs : List Byte) (s : State) : (placeBytes bs s).inReset = s.inReset := rfl
@[simp] theorem placeBytes_history (bs : List Byte) (s : State) : (placeBytes bs s).history = s.history := rfl
@[simp] theorem placeBytes_params (bs : List Byte) (s : State) : (placeBytes bs s).params = s.params := rfl
@[simp] theorem placeBytes_returned (bs : List Byte) (s : State) : (placeBytes bs s).returned = s.returned := rfl
@[simp] theorem placeBytes_script (bs : List Byte) (s : State) : (placeBytes bs s).script = bs ++ s.script := rfl
@[simp] theorem placeBytes_tick (bs : List Byte) (s : State) : (placeBytes bs s).tick = s.tick := rfl

/-! ### noteEdge -/

@[simp] theorem noteEdge_hallIn (s : State) : (noteEdge s).hallIn = s.hallIn := by unfold noteEdge; split <;> rfl
@[simp] theorem noteEdge_gate (s : State) : (noteEdge s).gate = s.gate := by unfold noteEdge; split <;> rfl
theorem noteEdge_pend (s : State) : (noteEdge s).pend = (!s.inReset || s.pend) := by
  unfold noteEdge; split <;> simp_all

@[simp] theorem noteEdge_phase (s : State) : (noteEdge s).phase = s.phase := by unfold noteEdge; split <;> rfl
@[simp] theorem noteEdge_idxLatch (s : State) : (noteEdge s).idxLatch = s.idxLatch := by unfold noteEdge; split <;> rfl
@[simp] theorem noteEdge_diagIndex (s : State) : (noteEdge s).diagIndex = s.diagIndex := by unfold noteEdge; split <;> rfl
@[simp] theorem noteEdge_diagPattern (s : State) : (noteEdge s).diagPattern = s.diagPattern := by unfold noteEdge; split <;> rfl
@[simp] theorem noteEdge_inReset (s : State) : (noteEdge s).inReset = s.inReset := by unfold noteEdge; split <;> rfl
@[simp] theorem noteEdge_history (s : State) : (noteEdge s).history = s.history := by unfold noteEdge; split <;> rfl
@[simp] theorem noteEdge_params (s : State) : (noteEdge s).params = s.params := by unfold noteEdge; split <;> rfl
@[simp] theorem noteEdge_returned (s : State) : (noteEdge s).returned = s.returned := by unfold noteEdge; split <;> rfl
@[simp] theorem noteEdge_script (s : State) : (noteEdge s).script = s.script := by unfold noteEdge; split <;> rfl
@[simp] theorem noteEdge_tick (s : State) : (noteEdge s).tick = s.tick := by unfold noteEdge; split <;> rfl

end Sys2Proof.Machine
end

