-- ==== Sys2Proof/Laws/Exec.lean ====
section
/-! SUPPORT. What each instruction can do: one inversion lemma per instruction. Invariants and frames cite these and do
not unfold exec. -/

namespace Sys2Proof.Machine

variable {s t : State}

@[simp] theorem lookup_eq (i : PosIndex) (s : State) : lookup i s = tableRow s.params.commTable i := rfl

@[simp] theorem sample_eq (s : State) : sample s = s.hallIn := rfl

@[simp] theorem diagRead_eq (s : State) : diagRead s = pairWord s.diagIndex s.diagPattern := rfl

/-- The guards as the control bits they test. -/
theorem edgeGuard_iff (v : HallLevels) : edgeGuard v s = true ↔ v ≠ s.hallIn := by simp [edgeGuard]

theorem sampleGuard_iff : sampleGuard s = true ↔ s.inReset = false ∧ s.pend = true ∧ s.phase = .idle := by
  simp [sampleGuard, and_assoc]

theorem commitGuard_iff : commitGuard s = true ↔ s.inReset = false ∧ s.phase = .sampled := by simp [commitGuard]

theorem releaseGuard_iff : releaseGuard s = true ↔ s.inReset = true := Iff.rfl

/-- The LOOKUP rows hand back a row and change nothing else. -/
theorem exec_lookup_next {i : Instr} (hi : i.row.format = .index) (h : exec i s = .next t) :
    t = returnRow i.row.pat s := by
  cases i <;> first | cases h; rfl | cases hi

theorem exec_edge_next {v : HallLevels} (h : exec (.edge v) s = .next t) :
    v ≠ s.hallIn ∧ t = noteEdge { s with hallIn := v } := by
  simp only [exec, execEdge] at h
  split at h
  · exact ⟨(edgeGuard_iff v).mp ‹_›, (Host.Outcome.next.inj h).symm⟩
  · cases h

theorem exec_dispatchSample_next (h : exec .dispatchSample s = .next t) :
    s.inReset = false ∧ s.pend = true ∧ s.phase = .idle ∧ t = enterDispatch s.hallIn s := by
  simp only [exec, execDispatchSample] at h
  split at h
  · obtain ⟨h1, h2, h3⟩ := sampleGuard_iff.mp ‹_›
    exact ⟨h1, h2, h3, (Host.Outcome.next.inj h).symm⟩
  · cases h

theorem exec_dispatchCommit_next (h : exec .dispatchCommit s = .next t) :
    s.inReset = false ∧ s.phase = .sampled ∧ t = commitIndex s.idxLatch s := by
  simp only [exec, execDispatchCommit] at h
  split at h
  · obtain ⟨h1, h2⟩ := commitGuard_iff.mp ‹_›
    exact ⟨h1, h2, (Host.Outcome.next.inj h).symm⟩
  · cases h

theorem exec_snapshot_next (h : exec .snapshot s = .next t) :
    t = answer (.word (diagRead s)) (record [.snap (diagRead s)] s) := (Host.Outcome.next.inj h).symm

theorem exec_reset_next (h : exec .reset s = .next t) :
    t = record [.resetOut safeGates] (resetFields (outWrite safeGates s)) := (Host.Outcome.next.inj h).symm

theorem exec_release_next (h : exec .release s = .next t) : s.inReset = true ∧ t = releaseReset s := by
  simp only [exec, execRelease] at h
  split at h
  · exact ⟨‹_›, (Host.Outcome.next.inj h).symm⟩
  · cases h

/-- Everything an instruction that answers a next state can have done. -/
theorem exec_next_cases {i : Instr} (h : exec i s = .next t) :
    (i.row.format = .index ∧ t = returnRow i.row.pat s) ∨
    (∃ v, i = .edge v ∧ v ≠ s.hallIn ∧ t = noteEdge { s with hallIn := v }) ∨
    (i = .dispatchSample ∧ s.inReset = false ∧ s.pend = true ∧ s.phase = .idle ∧ t = enterDispatch s.hallIn s) ∨
    (i = .dispatchCommit ∧ s.inReset = false ∧ s.phase = .sampled ∧ t = commitIndex s.idxLatch s) ∨
    (i = .snapshot ∧ t = answer (.word (diagRead s)) (record [.snap (diagRead s)] s)) ∨
    (i = .reset ∧ t = record [.resetOut safeGates] (resetFields (outWrite safeGates s))) ∨
    (i = .release ∧ s.inReset = true ∧ t = releaseReset s) := by
  cases i with
  | edge v => exact .inr (.inl ⟨v, rfl, exec_edge_next h⟩)
  | dispatchSample => exact .inr (.inr (.inl ⟨rfl, exec_dispatchSample_next h⟩))
  | dispatchCommit => exact .inr (.inr (.inr (.inl ⟨rfl, exec_dispatchCommit_next h⟩)))
  | snapshot => exact .inr (.inr (.inr (.inr (.inl ⟨rfl, exec_snapshot_next h⟩))))
  | reset => exact .inr (.inr (.inr (.inr (.inr (.inl ⟨rfl, exec_reset_next h⟩)))))
  | release => exact .inr (.inr (.inr (.inr (.inr (.inr ⟨rfl, exec_release_next h⟩)))))
  | lookup0 => exact .inl ⟨rfl, exec_lookup_next rfl h⟩
  | lookup1 => exact .inl ⟨rfl, exec_lookup_next rfl h⟩
  | lookup2 => exact .inl ⟨rfl, exec_lookup_next rfl h⟩
  | lookup3 => exact .inl ⟨rfl, exec_lookup_next rfl h⟩
  | lookup4 => exact .inl ⟨rfl, exec_lookup_next rfl h⟩
  | lookup5 => exact .inl ⟨rfl, exec_lookup_next rfl h⟩
  | lookup6 => exact .inl ⟨rfl, exec_lookup_next rfl h⟩
  | lookup7 => exact .inl ⟨rfl, exec_lookup_next rfl h⟩

/-! ### The commit of an index, field by field -/

@[simp] theorem commitIndex_gate (i : PosIndex) (s : State) :
    (commitIndex i s).gate = encodeGates (tableRow s.params.commTable i) := rfl
@[simp] theorem commitIndex_diagIndex (i : PosIndex) (s : State) : (commitIndex i s).diagIndex = i := rfl
@[simp] theorem commitIndex_diagPattern (i : PosIndex) (s : State) :
    (commitIndex i s).diagPattern = tableRow s.params.commTable i := rfl
@[simp] theorem commitIndex_phase (i : PosIndex) (s : State) : (commitIndex i s).phase = .idle := rfl
@[simp] theorem commitIndex_history (i : PosIndex) (s : State) :
    (commitIndex i s).history = s.history ++
      [.commit i (tableRow s.params.commTable i) (encodeGates (tableRow s.params.commTable i)),
        .hook i (tableRow s.params.commTable i)] := rfl
@[simp] theorem commitIndex_hallIn (i : PosIndex) (s : State) : (commitIndex i s).hallIn = s.hallIn := rfl
@[simp] theorem commitIndex_pend (i : PosIndex) (s : State) : (commitIndex i s).pend = s.pend := rfl
@[simp] theorem commitIndex_idxLatch (i : PosIndex) (s : State) : (commitIndex i s).idxLatch = s.idxLatch := rfl
@[simp] theorem commitIndex_inReset (i : PosIndex) (s : State) : (commitIndex i s).inReset = s.inReset := rfl
@[simp] theorem commitIndex_params (i : PosIndex) (s : State) : (commitIndex i s).params = s.params := rfl
@[simp] theorem commitIndex_returned (i : PosIndex) (s : State) : (commitIndex i s).returned = s.returned := rfl
@[simp] theorem commitIndex_script (i : PosIndex) (s : State) : (commitIndex i s).script = s.script := rfl
@[simp] theorem commitIndex_tick (i : PosIndex) (s : State) : (commitIndex i s).tick = s.tick := rfl

end Sys2Proof.Machine
end

