-- ==== Sys2Proof/Laws/Enabled.lean ====
section
/-! SUPPORT. When each step is enabled, as conditions on the state; an instruction that is not enabled is refused under its
own name; a step of the machine is an instruction on the same core state. -/

namespace Sys2Proof.Machine

variable {s t : State}

theorem enabled_edge (v : HallLevels) : Enabled (.edge v) s ↔ v ≠ s.hallIn := by
  by_cases h : v = s.hallIn <;> simp [Enabled, exec, execEdge, edgeGuard, h]

theorem enabled_dispatchSample :
    Enabled .dispatchSample s ↔ s.inReset = false ∧ s.pend = true ∧ s.phase = .idle := by
  rw [← sampleGuard_iff]
  simp only [Enabled, exec, execDispatchSample]
  cases sampleGuard s <;> simp

theorem enabled_dispatchCommit : Enabled .dispatchCommit s ↔ s.inReset = false ∧ s.phase = .sampled := by
  rw [← commitGuard_iff]
  simp only [Enabled, exec, execDispatchCommit]
  cases commitGuard s <;> simp

theorem enabled_release : Enabled .release s ↔ s.inReset = true := by
  cases h : s.inReset <;> simp [Enabled, exec, execRelease, releaseGuard, h]

theorem enabled_snapshot : Enabled .snapshot s := ⟨_, rfl⟩

theorem enabled_reset : Enabled .reset s := ⟨_, rfl⟩

/-- An instruction answers a next state, or is refused because its guard does not hold. -/
theorem exec_next_or_refused (i : Instr) (s : State) :
    (∃ t, exec i s = .next t) ∨ exec i s = .refused (.guardFails i.row.mnemonic) := by
  cases i with
  | edge v => by_cases h : v = s.hallIn <;> simp [exec, execEdge, edgeGuard, h, Instr.row]
  | dispatchSample => cases h : sampleGuard s <;> simp [exec, execDispatchSample, h, Instr.row]
  | dispatchCommit => cases h : commitGuard s <;> simp [exec, execDispatchCommit, h, Instr.row]
  | release => cases h : releaseGuard s <;> simp [exec, execRelease, h, Instr.row]
  | _ => exact .inl ⟨_, rfl⟩

/-- Whether an instruction is enabled depends on the control bits and the lines alone. -/
theorem enabled_congr {i : Instr} {s s' : State} (hr : s'.inReset = s.inReset) (hp : s'.pend = s.pend)
    (hq : s'.phase = s.phase) (hh : s'.hallIn = s.hallIn) : Enabled i s' ↔ Enabled i s := by
  cases i <;> first
    | exact ⟨fun _ => ⟨_, rfl⟩, fun _ => ⟨_, rfl⟩⟩
    | simp only [enabled_edge, enabled_dispatchSample, enabled_dispatchCommit, enabled_release, hr, hp, hq, hh]

/-- A step that answers runs one instruction, on the state with its script and its counter moved on. -/
theorem step_next_cases (h : step s = .next t) :
    s.params.wf = true ∧ ∃ i script tick, exec i { s with script := script, tick := tick } = .next t := by
  unfold step at h
  split at h
  · refine ⟨‹_›, ?_⟩
    split at h
    · exact ⟨_, s.script, _, h⟩
    · split at h
      · exact ⟨_, _, s.tick, h⟩
      · cases h
  · cases h

/-- Running n + 1 steps of a core is running n steps from the next state. -/
theorem run_succ_of_next (M : Host.Core) {n : Nat} {s t : M.State} (h : M.step s = .next t) :
    M.run (n + 1) s = M.run n t := by simp only [Host.Core.run, h]

theorem run_succ_of_refused (M : Host.Core) {n : Nat} {s : M.State} {r : M.Refusal} (h : M.step s = .refused r) :
    M.run (n + 1) s = .refused r := by simp only [Host.Core.run, h]

/-! ### Runs of instructions -/

/-- A property that each instruction of a list keeps holds after the list. -/
theorem runSteps_keeps {P : State → Prop} {is : List Instr}
    (hP : ∀ i ∈ is, ∀ s t, P s → exec i s = .next t → P t) (h0 : P s) (h : runSteps is s = .next t) : P t := by
  induction is generalizing s with
  | nil => cases h; exact h0
  | cons i is ih =>
    simp only [runSteps] at h
    cases hx : exec i s with
    | next u =>
      rw [hx] at h
      exact ih (fun j hj => hP j (List.mem_cons_of_mem _ hj)) (hP i List.mem_cons_self _ _ h0 hx) h
    | fault f => cases f
    | refused r => rw [hx] at h; cases h

theorem runSteps_append (a b : List Instr) (s : State) :
    runSteps (a ++ b) s =
      match runSteps a s with
      | .next t => runSteps b t
      | .fault f => .fault f
      | .refused r => .refused r := by
  induction a generalizing s with
  | nil => rfl
  | cons i is ih => simp only [List.cons_append, runSteps]; cases exec i s <;> simp [ih]

end Sys2Proof.Machine
end

