-- ==== Sys2Proof/Laws/PerInstr.lean ====
section
/-! SUPPORT. Facts about each instruction as syntax. -/

/-- An instruction's byte carries, in bits 2 to 0, three bits that its opcode-table row accepts (R79), and its row's
selector in bits 7 to 3 (log 2). -/
def Sys2Proof.Laws.WordMatchesRow.Statement (i : Sys2Proof.Instr) : Prop :=
  i.row.accepts ((Sys2Proof.encodeByte i).extractLsb' 0 3) = true ∧
    (Sys2Proof.encodeByte i).extractLsb' 3 5 = Sys2Proof.selectorOf i

namespace Sys2Proof.Laws.WordMatchesRow

theorem lookup0 : Statement .lookup0 := by unfold Statement; decide
theorem lookup1 : Statement .lookup1 := by unfold Statement; decide
theorem lookup2 : Statement .lookup2 := by unfold Statement; decide
theorem lookup3 : Statement .lookup3 := by unfold Statement; decide
theorem lookup4 : Statement .lookup4 := by unfold Statement; decide
theorem lookup5 : Statement .lookup5 := by unfold Statement; decide
theorem lookup6 : Statement .lookup6 := by unfold Statement; decide
theorem lookup7 : Statement .lookup7 := by unfold Statement; decide
theorem edge (v : HallLevels) : Statement (.edge v) := by unfold Statement; revert v; decide
theorem dispatchSample : Statement .dispatchSample := by unfold Statement; decide
theorem dispatchCommit : Statement .dispatchCommit := by unfold Statement; decide
theorem snapshot : Statement .snapshot := by unfold Statement; decide
theorem reset : Statement .reset := by unfold Statement; decide
theorem release : Statement .release := by unfold Statement; decide

end Sys2Proof.Laws.WordMatchesRow
end

