-- ==== Sys2Proof/Laws/Schedule.lean ====
section
/-! SUPPORT. The schedule: what is listed as enabled is, and the draw takes one of them. -/

namespace Sys2Proof.Machine

theorem mem_allLevels (v : HallLevels) : v ∈ allLevels := by revert v; decide

theorem enabledSteps_ne_nil (s : State) : enabledSteps s ≠ [] := by simp [enabledSteps]

/-- The draw is one of the enabled steps. -/
theorem drawStep_mem (s : State) : drawStep s ∈ enabledSteps s := by
  have h : 0 < (enabledSteps s).length := List.length_pos_iff.mpr (enabledSteps_ne_nil s)
  have hlt := Nat.mod_lt (Config.schedule s.tick) h
  simp only [drawStep, List.getD_eq_getElem?_getD, List.getElem?_eq_getElem hlt, Option.getD_some]
  exact List.getElem_mem hlt

end Sys2Proof.Machine
end

