-- ==== Sys2Proof/Tests/Slice0.lean ====
section
/-! SUPPORT. Tests. Expected values are those of 95_test_vectors.md and of the worked examples in the rules, or written out
from the encodings of 30_encoding.md and opcode_table.json. The last part names, for each statement with hypotheses,
a state that meets them. -/

namespace Sys2Proof.Tests

open Sys2Proof Sys2Proof.Machine

/-! ### Small states -/

/-- A state in the notation of 95_test_vectors.md section 2.4, out of reset, with the default parameters and no history:
hall_in, pend, phase, idx_latch, gate, diag_index. -/
def st (hall : HallLevels) (pend : Bool) (ph : Phase) (idx : PosIndex) (gate : Gates) (diag : PosIndex) : State :=
  { State.reset with
    hallIn := hall, pend := pend, phase := ph, idxLatch := idx, gate := gate, diagIndex := diag
    diagPattern := tableRow defaultTable diag, inReset := false, history := [] }

/-- The state a step answers, if it answers one. -/
def after (o : Host.Outcome State Fault Refusal) : Option State :=
  match o with
  | .next s => some s
  | .fault _ => none
  | .refused _ => none

/-- The reason a step is refused, if it is. -/
def refusal (o : Host.Outcome State Fault Refusal) : Option Refusal :=
  match o with
  | .next _ => none
  | .fault _ => none
  | .refused r => some r

/-! ### WellFormed: one ill-formed configuration for each check (95_test_vectors.md section 2.3) -/

def withRow (i : Nat) (p : Pattern) : Params := { Params.default with commTable := defaultTable.setIfInBounds i p }

theorem test_cf1_default_accepted : Params.default.wf = true := by decide
theorem test_cf2_unsafe_row_refused : (withRow 1 0x03#6).wf = false := by decide
theorem test_cf3_row0_must_be_off : (withRow 0 0x21#6).wf = false := by decide
theorem test_cf5_two_high_sides_refused : (withRow 2 0x05#6).wf = false := by decide
theorem test_cf6_valid_row_must_conduct : (withRow 2 0x00#6).wf = false := by decide
theorem test_cf7_repeated_row_accepted : (withRow 4 0x21#6).wf = true := by decide
theorem test_cf8_unsafe_row_refused : (withRow 3 0x0C#6).wf = false := by decide

def somePins : PinMap := ⟨10, 11, 12, 20, 21, 22, 23, 24, 25⟩

theorem test_pinMap_injective_accepted : ({ Params.default with pinMap := some somePins }).wf = true := by decide
theorem test_pinMap_shared_pin_refused :
    ({ Params.default with pinMap := some { somePins with gateCL := 10 } }).wf = false := by decide
theorem test_every_edge_well_formed : ∀ v, (Instr.edge v).wf = true := by decide

/-! ### Decode: words written out from the encodings -/

theorem test_decode_lookup0 : decodeTableWord 8 0b000 = some .lookup0 := by decide
theorem test_decode_lookup1 : decodeTableWord 8 0b001 = some .lookup1 := by decide
theorem test_decode_lookup2 : decodeTableWord 8 0b010 = some .lookup2 := by decide
theorem test_decode_lookup3 : decodeTableWord 8 0b011 = some .lookup3 := by decide
theorem test_decode_lookup4 : decodeTableWord 8 0b100 = some .lookup4 := by decide
theorem test_decode_lookup5 : decodeTableWord 8 0b101 = some .lookup5 := by decide
theorem test_decode_lookup6 : decodeTableWord 8 0b110 = some .lookup6 := by decide
theorem test_decode_lookup7 : decodeTableWord 8 0b111 = some .lookup7 := by decide
theorem test_decode_edge : decode [0b00001110#8] = .instr (.edge 0b110#3) [] := by decide
theorem test_decode_dispatchSample : decode [0b00010010#8] = .instr .dispatchSample [] := by decide
theorem test_decode_dispatchCommit : decode [0b00011011#8] = .instr .dispatchCommit [] := by decide
theorem test_decode_snapshot : decode [0b00100000#8] = .instr .snapshot [] := by decide
theorem test_decode_reset : decode [0b00101000#8, 1#8] = .instr .reset [1#8] := by decide
theorem test_decode_release : decode [0b00110111#8] = .instr .release [] := by decide
theorem test_decode_commit_in_reset_bits_rejected : decode [0b00011101#8] = .reject (.rowBits "DISPATCH_COMMIT") := by decide
theorem test_decode_unknown_row_rejected : decode [0b00111000#8] = .reject (.unknownRow 7) := by decide
theorem test_decode_nothing_rejected : decode [] = .reject .noLine := by decide

/-- The table word of LOOKUP_1 runs as the first instruction after reset and returns AH and CL (W2). -/
theorem test_fetchWord_lookup1 :
    (after (step (State.reset.withFetchWord 8 0b001))).map (·.returned) = some (some (.pattern 0b100001#6)) := by decide

/-! ### Values (95_test_vectors.md sections 2.1, 2.2, 2.5; R64, R100) -/

theorem test_sa1_pack : pack 0b001#3 = 1#3 := by decide
theorem test_gd2_decode : decodeGates 0x00#6 = 0x15#6 := by decide
theorem test_gd3_decode : decodeGates 0x3F#6 = 0x2A#6 := by decide
theorem test_gd5_shootThrough : commandsShootThrough 0x16#6 = true := by decide
theorem test_gd4_no_shootThrough : commandsShootThrough 0x17#6 = false := by decide
theorem test_safe_count : ((List.range 64).filter fun n => isSafe (BitVec.ofNat 6 n)).length = 27 := by decide
theorem test_conducting_count : ((List.range 64).filter fun n => isConducting (BitVec.ofNat 6 n)).length = 6 := by decide
theorem test_sn6_word : pairWord 5#3 0b001001#6 = 0x149#9 := by decide
theorem test_forward_steps_change_one_line :
    ∀ i j, forwardNext i = some j → linesChanged i j = 1 ∧ isValidIndex j = true ∧
      swapsComplements (encodeGates (tableRow defaultTable i)) (encodeGates (tableRow defaultTable j)) = false := by decide
theorem test_tr7_three_line_swap :
    swapsLeg (encodeGates (tableRow defaultTable 3#3)) (encodeGates (tableRow defaultTable 4#3)) .b = true := by decide

/-! ### One step (95_test_vectors.md sections 2.4 to 2.6) -/

theorem test_lookup0_returns_off :
    (after (exec .lookup0 State.reset)).map (·.returned) = some (some (.pattern 0#6)) := by decide
theorem test_lookup2_row : (after (exec .lookup2 State.reset)).map (·.returned) = some (some (.pattern 0x06#6)) := by decide
theorem test_lookup3_row : (after (exec .lookup3 State.reset)).map (·.returned) = some (some (.pattern 0x24#6)) := by decide
theorem test_lookup4_row : (after (exec .lookup4 State.reset)).map (·.returned) = some (some (.pattern 0x18#6)) := by decide
theorem test_lookup5_row : (after (exec .lookup5 State.reset)).map (·.returned) = some (some (.pattern 0x09#6)) := by decide
theorem test_lookup6_row : (after (exec .lookup6 State.reset)).map (·.returned) = some (some (.pattern 0x12#6)) := by decide
theorem test_lookup7_returns_off :
    (after (exec .lookup7 State.reset)).map (·.returned) = some (some (.pattern 0#6)) := by decide
theorem test_dp1_edge :
    after (exec (.edge 0b101#3) (st 1#3 false .idle 1#3 0x34#6 1#3)) = some (st 5#3 true .idle 1#3 0x34#6 1#3) := by decide
theorem test_dp2_edge_refused :
    refusal (exec (.edge 0b001#3) (st 1#3 false .idle 1#3 0x34#6 1#3)) = some (.guardFails "EDGE") := by decide
theorem test_dp3_sample :
    after (exec .dispatchSample (st 5#3 true .idle 1#3 0x34#6 1#3)) = some (st 5#3 false .sampled 5#3 0x34#6 1#3) := by decide
theorem test_dp13_sample_refused :
    refusal (exec .dispatchSample (st 1#3 false .sampled 1#3 0x34#6 1#3)) = some (.guardFails "DISPATCH_SAMPLE") := by decide
theorem test_dp4_commit :
    after (exec .dispatchCommit (st 5#3 false .sampled 5#3 0x34#6 1#3)) =
      some { st 5#3 false .idle 5#3 0x1C#6 5#3 with
        history := [.commit 5#3 0x09#6 0x1C#6, .hook 5#3 0x09#6] } := by decide
theorem test_dp10_stale_commit_keeps_pend :
    (after (exec .dispatchCommit (st 4#3 true .sampled 5#3 0x34#6 1#3))).map (fun t => (t.pend, t.gate, t.diagIndex)) =
      some (true, 0x1C#6, 5#3) := by decide
theorem test_sn3_snapshot :
    (after (exec .snapshot (st 2#3 false .idle 2#3 0x13#6 2#3))).map (fun t => (t.history, t.returned)) =
      some ([.snap 0x086#9], some (.word 0x086#9)) := by decide
theorem test_rs1_reset :
    after (exec .reset (st 4#3 true .sampled 4#3 0x1C#6 5#3)) =
      some { st 4#3 false .idle 0#3 0x15#6 0#3 with inReset := true, history := [.resetOut 0x15#6] } := by decide
theorem test_rs3_release :
    (after (exec .release State.reset)).map (fun t => (t.inReset, t.pend, t.gate)) = some (false, false, 0x15#6) := by decide
theorem test_rs5_release_refused :
    refusal (exec .release (st 4#3 false .idle 4#3 0x0D#6 4#3)) = some (.guardFails "RELEASE") := by decide
theorem test_rs2_edge_in_reset :
    (after (exec (.edge 0b110#3) State.reset)).map (fun t => (t.hallIn, t.pend)) = some (6#3, false) := by decide
theorem test_bad_table_has_no_step :
    refusal (step { State.reset with params := withRow 1 0x03#6 }) = some .configurationRefused := by decide

/-! ### Script text (R77, R78) -/

theorem test_parse_script :
    parseScript "BOOT ; arm\nHALL 0b101\n\nEDGE 0x4\nSAMPLE\n" =
      some [.boot, .hall 5#3, .step (.edge 4#3), .step .dispatchSample] := by decide
theorem test_parse_numerals :
    ["0b101", "0x1C", "0x1c", "63", "0b102", "0x", "1C"].map (fun w => readNumeral w.toList) =
      [some 5, some 28, some 28, some 63, none, none, none] := by decide
theorem test_parse_rejects_wide_literal : parseScript "EDGE 0b1000" = none := by decide

/-! ### States that meet the hypotheses of the statements

Each theorem holds the hypotheses of the statement it names, together, for one state and operands; where a statement has
several clauses, one for each. -/

/-- Launched with the default parameters, released, one edge to index 5. -/
def s0 : State := launchState Params.default 1#3 []
def s1 : State := releaseReset s0
def s2 : State := noteEdge { s1 with hallIn := 5#3 }
def s3 : State := enterDispatch 5#3 s2
def s4 : State := commitIndex 5#3 s3

theorem reach_s0 : Reachable Params.default s0 := .launch 1#3 [] (by decide)
theorem reach_s1 : Reachable Params.default s1 := .exec .release s0 s1 reach_s0 rfl
theorem reach_s2 : Reachable Params.default s2 := .exec (.edge 5#3) s1 s2 reach_s1 rfl
theorem reach_s3 : Reachable Params.default s3 := .exec .dispatchSample s2 s3 reach_s2 rfl
theorem reach_s4 : Reachable Params.default s4 := .exec .dispatchCommit s3 s4 reach_s3 rfl

theorem witness_ResetAndLaunchMeetTheInvariant : Params.default.wf = true := by decide
theorem witness_ResetValuesHoldWhileInReset :
    Reachable Params.default s0 ∧ s0.inReset = true ∧ exec .release s0 = .next s1 := ⟨reach_s0, rfl, rfl⟩
theorem witness_LaunchStateIsWhatResetLeaves : (st 5#3 true .sampled 5#3 0x1C#6 5#3).history = [] := rfl
theorem witness_LaunchAcceptsExactlyTheLawfulTables_accepted :
    Params.default.pinMap = none ∧ launch Params.default 1#3 [] = .next s0 := ⟨rfl, rfl⟩
theorem witness_LaunchAcceptsExactlyTheLawfulTables_refused :
    (withRow 1 0x03#6).pinMap = none ∧ ∀ s, launch (withRow 1 0x03#6) 1#3 [] ≠ .next s :=
  ⟨rfl, fun _ h => (nomatch h : False)⟩
theorem witness_RefusedConfigurationTakesNoStep :
    launch { s0 with params := withRow 1 0x03#6 }.params 1#3 [] = .refused .configurationRefused := rfl
theorem witness_EdgeMovesTheLinesAndNotesTheEdge :
    (5#3 ≠ s1.hallIn ∧ s1.inReset = false) ∧ (0#3 ≠ s0.hallIn ∧ s0.inReset = true) ∧ 7#3 = { s1 with hallIn := 7#3 }.hallIn := by
  decide
theorem witness_SampleLatchesTheLinesAndClearsPend :
    (s2.inReset = false ∧ s2.pend = true ∧ s2.phase = .idle) ∧
      ¬(s3.inReset = false ∧ s3.pend = true ∧ s3.phase = .idle) := by decide
theorem witness_CommitWritesTheRowOfTheLatchedIndex :
    (s3.inReset = false ∧ s3.phase = .sampled) ∧ ¬(s2.inReset = false ∧ s2.phase = .sampled) := by decide
theorem witness_ReleaseArmsTheCore : s0.inReset = true ∧ s1.inReset = false := by decide
theorem witness_LookupsReturnTheDocumentedPatterns :
    s0.params.commTable = Params.default.commTable ∧ s0.params.wf = true := by decide
theorem witness_DefaultTableDrivesTheDocumentedGates (i : PosIndex) :
    (st 0#3 false .sampled i 0x15#6 0#3).params.commTable = State.reset.params.commTable ∧
      (st 0#3 false .sampled i 0x15#6 0#3).inReset = false ∧ (st 0#3 false .sampled i 0x15#6 0#3).phase = .sampled ∧
      (st 0#3 false .sampled i 0x15#6 0#3).idxLatch = i := ⟨rfl, rfl, rfl, rfl⟩
theorem witness_SampledIndexIsThePackedLines : exec .dispatchSample s2 = .next s3 := rfl
theorem witness_DrivenLinesFollowThePolarity :
    exec .dispatchCommit s3 = .next s4 ∧ ∃ t, exec .reset s4 = .next t := ⟨rfl, _, rfl⟩
theorem witness_StepRunsTheDecodedLine_decoded :
    { s2 with script := [0b00010010#8, 7#8] }.params.wf = true ∧ { s2 with script := [0b00010010#8, 7#8] }.script ≠ [] ∧
      decode { s2 with script := [0b00010010#8, 7#8] }.script = .instr .dispatchSample [7#8] := by decide
theorem witness_StepRunsTheDecodedLine_rejected :
    { s2 with script := [0xFF#8] }.params.wf = true ∧ { s2 with script := [0xFF#8] }.script ≠ [] ∧
      decode { s2 with script := [0xFF#8] }.script = .reject (.unknownRow 31) := by decide
theorem witness_StepWithoutScriptFiresAnEnabledStep : State.reset.params.wf = true ∧ State.reset.script = [] := by decide
theorem witness_ControlVectorSelectsTheEnabledSteps : Reachable Params.default s4 ∧ ctl s4 = 0b000#3 := ⟨reach_s4, by decide⟩
theorem witness_OpcodeRowsAreTheGuards_enabled :
    Instr.dispatchCommit.row.format = .control ∧ Enabled .dispatchCommit s3 := ⟨rfl, _, rfl⟩
theorem witness_OpcodeRowsAreTheGuards_accepted :
    Instr.release.row.format = .control ∧ (∀ v, Instr.release ≠ .edge v) ∧ Instr.release.row.accepts (ctl s0) = true :=
  ⟨rfl, fun _ h => (nomatch h : False), by decide⟩
theorem witness_DecodeAndEncodeAgree :
    (Instr.edge 7#3).wf = true ∧ decode (0b00001111#8 :: [1#8]) = .instr (.edge 7#3) [1#8] := by decide
theorem witness_ScriptRunsAsItsExpansion :
    { s0 with script := assemble [.boot, .hall 5#3] }.params.wf = true ∧
      { s0 with script := assemble [.boot, .hall 5#3] }.script = assemble [.boot, .hall 5#3] := by decide
theorem witness_EdgeChangesNoOutput : exec (.edge 5#3) s1 = .next s2 := rfl
theorem witness_DispatcherStepsFrame : exec .dispatchSample s2 = .next s3 ∧ exec .dispatchCommit s3 = .next s4 := ⟨rfl, rfl⟩
theorem witness_ReadingOperationsFrame :
    (∃ t, exec .snapshot s4 = .next t) ∧ Instr.lookup7.row.format = .index ∧ ∃ t, exec .lookup7 s4 = .next t :=
  ⟨⟨_, rfl⟩, rfl, _, rfl⟩
theorem witness_ResetStepsFrame : (∃ t, exec .reset s4 = .next t) ∧ exec .release s0 = .next s1 := ⟨⟨_, rfl⟩, rfl⟩
theorem witness_FieldsHaveOnlyTheirListedWriters :
    (exec (.edge 5#3) s1 = .next s2 ∧ s2.hallIn ≠ s1.hallIn ∧ s2.pend ≠ s1.pend) ∧
      (exec .dispatchSample s2 = .next s3 ∧ s3.phase ≠ s2.phase ∧ s3.idxLatch ≠ s2.idxLatch) ∧
      (exec .dispatchCommit s3 = .next s4 ∧ s4.gate ≠ s3.gate ∧ s4.diagIndex ≠ s3.diagIndex ∧ s4.history ≠ s3.history) ∧
      (exec .release s0 = .next s1 ∧ s1.inReset ≠ s0.inReset) :=
  ⟨⟨rfl, by decide⟩, ⟨rfl, by decide⟩, ⟨rfl, by decide⟩, rfl, by decide⟩
theorem witness_ParametersNeverChange :
    exec .dispatchCommit s3 = .next s4 ∧
      step { s3 with script := encode .dispatchCommit } = .next { s4 with script := [] } := ⟨rfl, rfl⟩
theorem witness_HistoryIsAppendOnlyAndUnread :
    exec .dispatchCommit s3 = .next s4 ∧ exec .dispatchCommit s2 = .refused (.guardFails "DISPATCH_COMMIT") := ⟨rfl, rfl⟩
theorem witness_DiagnosticsDoNotReachTheOutputs :
    exec .dispatchCommit s3 = .next s4 ∧ exec .dispatchSample s3 = .refused (.guardFails "DISPATCH_SAMPLE") := ⟨rfl, rfl⟩
theorem witness_PinMapHasNoEffect :
    exec .release s0 = .next s1 ∧ exec .release s1 = .refused (.guardFails "RELEASE") := ⟨rfl, rfl⟩
theorem witness_OnlyRowsOrSafeAreDriven : exec .dispatchCommit s3 = .next s4 ∧ Reachable Params.default s4 := ⟨rfl, reach_s4⟩

/-- The sampled state meets the invariant. -/
theorem inv_s3 : Inv s3 := ⟨by decide, by decide, by decide, fun _ => rfl, fun h => absurd h (by decide)⟩

theorem witness_EveryStepKeepsTheInvariant :
    Inv s3 ∧ exec .dispatchCommit s3 = .next s4 ∧ Inv { s3 with script := encode .dispatchCommit } ∧
      step { s3 with script := encode .dispatchCommit } = .next { s4 with script := [] } :=
  ⟨inv_s3, rfl, ⟨inv_s3.1, inv_s3.2, inv_s3.3, inv_s3.4, inv_s3.5⟩, rfl⟩
theorem witness_StepStaysReachable :
    Reachable Params.default { s3 with script := encode .dispatchCommit, tick := 0 } ∧
      step { s3 with script := encode .dispatchCommit, tick := 0 } = .next { s4 with script := [] } :=
  ⟨.schedule s3 _ 0 reach_s3, rfl⟩
theorem witness_ReachablePairIsATableRow : Reachable Params.default s4 := reach_s4
theorem witness_ReachableLinesCarryTheLastPattern : Reachable Params.default s4 := reach_s4
theorem witness_NoReachableShootThrough : Reachable Params.default s4 := reach_s4
theorem witness_ReachableSampledIsOutOfReset : Reachable Params.default s3 ∧ s3.phase = .sampled := ⟨reach_s3, rfl⟩
theorem witness_QuiescentCoreOutputsTheCurrentLines_committed :
    Reachable Params.default s4 ∧ Quiescent s4 ∧ committedSinceReset s4.history = true := ⟨reach_s4, ⟨rfl, rfl, rfl⟩, rfl⟩
theorem witness_QuiescentCoreOutputsTheCurrentLines_uncommitted :
    Reachable Params.default s1 ∧ Quiescent s1 ∧ committedSinceReset s1.history = false := ⟨reach_s1, ⟨rfl, rfl, rfl⟩, rfl⟩

/-- Program P5 of 95_test_vectors.md: INITIAL_DISPATCH true, lines at index 3. -/
def paramsDispatchFirst : Params := { Params.default with initialDispatch := true }
def d0 : State := launchState paramsDispatchFirst 3#3 []
def d1 : State := releaseReset d0
def d2 : State := enterDispatch 3#3 d1
def d3 : State := commitIndex 3#3 d2

theorem reach_d0 : Reachable paramsDispatchFirst d0 := .launch 3#3 [] (by decide)
theorem reach_d3 : Reachable paramsDispatchFirst d3 :=
  .exec .dispatchCommit d2 d3 (.exec .dispatchSample d1 d2 (.exec .release d0 d1 reach_d0 rfl) rfl) rfl

theorem witness_QuiescentCoreOutputsTheCurrentLines_initialDispatch :
    Reachable paramsDispatchFirst d3 ∧ Quiescent d3 ∧ paramsDispatchFirst.initialDispatch = true :=
  ⟨reach_d3, ⟨rfl, rfl, rfl⟩, rfl⟩
theorem test_rs4_initial_dispatch : d3.gate = 0x31#6 ∧ d3.diagIndex = 3#3 := by decide

theorem witness_SnapshotPairIsConsistent : Reachable Params.default s4 := reach_s4
theorem witness_HistoryTellsTheOutputs : Reachable Params.default s4 := reach_s4
theorem witness_ResetHoldsOffDispatchAndEdges :
    Reachable Params.default s0 ∧ s0.inReset = true ∧ 7#3 ≠ s0.hallIn := ⟨reach_s0, rfl, by decide⟩
theorem witness_EdgesCoalesceIntoOneDispatch :
    s1.inReset = false ∧ s1.phase = .idle ∧
      ∃ t, runSteps ((5#3 :: [7#3, 4#3]).map .edge) s1 = .next t := ⟨rfl, rfl, _, rfl⟩
theorem witness_OnlyResetDisturbsADispatch_sampled :
    exec (.edge 4#3) s3 = .next (noteEdge { s3 with hallIn := 4#3 }) ∧ Instr.edge 4#3 ≠ .reset ∧ s3.inReset = false ∧
      s3.phase = .sampled ∧ Instr.edge 4#3 ≠ .dispatchCommit := ⟨rfl, by decide, rfl, rfl, by decide⟩
theorem witness_OnlyResetDisturbsADispatch_pending :
    exec (.edge 4#3) s2 = .next (noteEdge { s2 with hallIn := 4#3 }) ∧ Instr.edge 4#3 ≠ .reset ∧
      Enabled .dispatchSample s2 ∧ Instr.edge 4#3 ≠ .dispatchSample := ⟨rfl, by decide, ⟨_, rfl⟩, by decide⟩
theorem witness_DispatchesDoNotNest : s3.phase = .sampled ∧ s3.inReset = false ∧ 4#3 ≠ s3.hallIn := by decide
theorem witness_StaleCommitIsFollowedByAFreshDispatch :
    s2.params.wf = true ∧ s2.inReset = false ∧ s2.pend = true ∧ s2.phase = .idle ∧ 4#3 ≠ s2.hallIn := by decide
theorem witness_InvalidIndexCommitsAllOff_high :
    { s2 with hallIn := 7#3 }.params.wf = true ∧ { s2 with hallIn := 7#3 }.inReset = false ∧
      { s2 with hallIn := 7#3 }.pend = true ∧ { s2 with hallIn := 7#3 }.phase = .idle ∧
      ({ s2 with hallIn := 7#3 }.hallIn = 0b000#3 ∨ { s2 with hallIn := 7#3 }.hallIn = 0b111#3) := by decide
theorem witness_InvalidIndexCommitsAllOff_low :
    { s2 with hallIn := 0#3 }.params.wf = true ∧ { s2 with hallIn := 0#3 }.inReset = false ∧
      { s2 with hallIn := 0#3 }.pend = true ∧ { s2 with hallIn := 0#3 }.phase = .idle ∧
      ({ s2 with hallIn := 0#3 }.hallIn = 0b000#3 ∨ { s2 with hallIn := 0#3 }.hallIn = 0b111#3) := by decide
theorem witness_RepeatedDispatchIsIdempotent :
    ∃ b c d, runSteps [.dispatchSample, .dispatchCommit] s2 = .next b ∧
      (∀ i ∈ [Instr.edge 7#3, .snapshot, .edge 5#3], (∃ v, i = .edge v) ∨ i = .snapshot) ∧
      runSteps [.edge 7#3, .snapshot, .edge 5#3] b = .next c ∧ c.hallIn = s2.hallIn ∧
      runSteps [.dispatchSample, .dispatchCommit] c = .next d := ⟨_, _, _, rfl, by simp, rfl, rfl, rfl⟩
theorem witness_ForwardRotationMakesSixCommits :
    (st 1#3 false .idle 1#3 0x34#6 1#3).params.commTable = defaultTable ∧ Quiescent (st 1#3 false .idle 1#3 0x34#6 1#3) ∧
      (st 1#3 false .idle 1#3 0x34#6 1#3).hallIn = 1#3 ∧ (st 1#3 false .idle 1#3 0x34#6 1#3).gate = 0x34#6 :=
  ⟨rfl, ⟨rfl, rfl, rfl⟩, rfl, rfl⟩

/-- At index 1 with another index latched. -/
theorem inv_latched (i : PosIndex) : Inv (st 1#3 true .sampled i 0x34#6 1#3) :=
  ⟨test_cf1_default_accepted, rfl, (by decide : (0x34#6 : Gates) = encodeGates (tableRow defaultTable 1#3)),
    fun _ => rfl, fun h => absurd h Bool.false_ne_true⟩

theorem witness_ComplementarySwapsNeedTwoLineChanges :
    (∀ i : PosIndex, Inv (st 1#3 true .sampled i 0x34#6 1#3)) ∧
      (st 1#3 true .sampled 6#3 0x34#6 1#3).params.commTable = defaultTable ∧
      (st 1#3 true .sampled 6#3 0x34#6 1#3).diagIndex = 1#3 ∧
      (∃ t, exec .dispatchCommit (st 1#3 true .sampled 6#3 0x34#6 1#3) = .next t ∧ t.diagIndex = 6#3) ∧
      ∃ t, exec .dispatchCommit (st 1#3 true .sampled 2#3 0x34#6 1#3) = .next t ∧ t.diagIndex = 2#3 :=
  ⟨inv_latched, rfl, rfl, ⟨_, rfl, rfl⟩, _, rfl, rfl⟩
theorem witness_LinesHoldSafeUntilTheFirstCommit_reactive :
    Reachable Params.default s0 ∧ exec .release s0 = .next s1 ∧ Params.default.initialDispatch = false ∧
      (∃ u, runSteps [.snapshot, .lookup1] s1 = .next u) ∧ Instr.dispatchCommit ∉ [Instr.snapshot, .lookup1] ∧
      ∀ v, Instr.edge v ∉ [Instr.snapshot, .lookup1] := ⟨reach_s0, rfl, rfl, ⟨_, rfl⟩, by decide, by simp⟩
theorem witness_LinesHoldSafeUntilTheFirstCommit_dispatchFirst :
    Reachable paramsDispatchFirst d0 ∧ exec .release d0 = .next d1 ∧ paramsDispatchFirst.initialDispatch = true :=
  ⟨reach_d0, rfl, rfl⟩
theorem witness_ResetAbandonsEverything :
    ∃ t u, exec .reset s3 = .next t ∧ runSteps ([6#3, 0#3].map .edge) t = .next u := ⟨_, _, rfl, rfl⟩
theorem witness_SnapshotCommutesWithDispatch :
    exec .dispatchSample s2 = .next s3 ∧ exec .dispatchCommit s3 = .next s4 := ⟨rfl, rfl⟩

/-- A run of every agent: the dispatch of s2, then lookups for ever. -/
def fairStates : Nat → State
  | 0 => s2
  | 1 => s3
  | 2 => s4
  | _ => returnRow 0#3 s4

def fairLabels : Nat → Instr
  | 0 => .dispatchSample
  | 1 => .dispatchCommit
  | _ => .lookup0

theorem fairRun_isRun : IsRun fairStates fairLabels
  | 0 => rfl
  | 1 => rfl
  | 2 => rfl
  | _ + 3 => rfl

theorem fairRun_weaklyFair : WeaklyFair fairStates fairLabels := by
  intro i hi n h
  obtain ⟨t, ht⟩ := h (n + 3) (by omega)
  rcases hi with rfl | rfl <;> cases ht

theorem witness_FairRunsReachQuiescence :
    IsRun fairStates fairLabels ∧ WeaklyFair fairStates fairLabels ∧ QuietFrom fairLabels 0 ∧
      (fairStates 0).inReset = false ∧ (fairStates 0).pend = true := by
  refine ⟨fairRun_isRun, fairRun_weaklyFair, fun m _ => ?_, rfl, rfl⟩
  match m with
  | 0 => exact ⟨by decide, by decide⟩
  | 1 => exact ⟨by decide, by decide⟩
  | _ + 2 => exact ⟨by simp [fairLabels], by simp [fairLabels]⟩

theorem witness_EachPinCarriesItsLine :
    { s4 with params := { Params.default with pinMap := some somePins } }.params.wf = true ∧
      { s4 with params := { Params.default with pinMap := some somePins } }.params.pinMap = some somePins := by decide

end Sys2Proof.Tests
end

section
/-! PROOFS. What an instruction answers when its guard holds: the converses of the inversion lemmas of Laws/Exec. -/

namespace Sys2Proof.Machine

variable {s t : State}

theorem exec_lookup_of_index {i : Instr} (hi : i.row.format = .index) (s : State) :
    exec i s = .next (returnRow i.row.pat s) := by
  cases i with
  | edge | dispatchSample | dispatchCommit | snapshot | reset | release => cases hi
  | _ => rfl

theorem exec_edge_of_ne {v : HallLevels} (hv : v ≠ s.hallIn) :
    exec (.edge v) s = .next (noteEdge { s with hallIn := v }) :=
  if_pos ((edgeGuard_iff v).mpr hv)

theorem exec_dispatchSample_of_guard (hr : s.inReset = false) (hp : s.pend = true) (hq : s.phase = .idle) :
    exec .dispatchSample s = .next (enterDispatch s.hallIn s) :=
  if_pos (sampleGuard_iff.mpr ⟨hr, hp, hq⟩)

theorem exec_dispatchCommit_of_guard (hr : s.inReset = false) (hq : s.phase = .sampled) :
    exec .dispatchCommit s = .next (commitIndex s.idxLatch s) :=
  if_pos (commitGuard_iff.mpr ⟨hr, hq⟩)

theorem exec_release_of_inReset (hr : s.inReset = true) : exec .release s = .next (releaseReset s) :=
  if_pos (releaseGuard_iff.mpr hr)

end Sys2Proof.Machine
end

section
/-! PROOFS. The event history (R16): what it receives, and that no instruction reads it. -/

namespace Sys2Proof.Machine

variable {i : Instr} {s t : State}

theorem recordsOf_of_index (hi : i.row.format = .index) (s : State) : recordsOf i s = [] := by
  cases i with
  | edge | dispatchSample | dispatchCommit | snapshot | reset | release => cases hi
  | _ => rfl

theorem noteEdge_withHistory (h : List Event) (s : State) :
    noteEdge { s with history := h } = { noteEdge s with history := h } := by
  unfold noteEdge; split <;> rfl

/-- From the same state with another history, an instruction does the same and appends the same records. -/
theorem exec_withHistory_next (h : List Event) (ht : exec i s = .next t) :
    exec i { s with history := h } = .next { t with history := h ++ recordsOf i s } := by
  cases i with
  | edge v =>
    obtain ⟨hv, rfl⟩ := exec_edge_next ht
    rw [exec_edge_of_ne (s := { s with history := h }) hv]
    simpa [recordsOf] using noteEdge_withHistory h { s with hallIn := v }
  | dispatchSample =>
    obtain ⟨hr, hp, hq, rfl⟩ := exec_dispatchSample_next ht
    rw [exec_dispatchSample_of_guard (s := { s with history := h }) hr hp hq]
    simp [recordsOf, enterDispatch]
  | dispatchCommit =>
    obtain ⟨hr, hq, rfl⟩ := exec_dispatchCommit_next ht
    exact exec_dispatchCommit_of_guard (s := { s with history := h }) hr hq
  | snapshot => obtain rfl := exec_snapshot_next ht; rfl
  | reset => obtain rfl := exec_reset_next ht; rfl
  | release =>
    obtain ⟨hr, rfl⟩ := exec_release_next ht
    rw [exec_release_of_inReset (s := { s with history := h }) hr]
    simp [recordsOf, releaseReset]
  | _ =>
    obtain rfl := exec_lookup_next rfl ht
    rw [exec_lookup_of_index rfl, recordsOf_of_index rfl, List.append_nil]
    rfl

/-- An instruction appends its records: the case of `exec_withHistory_next` in which the other history is the state's own. -/
theorem exec_next_history (ht : exec i s = .next t) : t.history = s.history ++ recordsOf i s := by
  have hself : exec i s = .next { t with history := s.history ++ recordsOf i s } :=
    exec_withHistory_next s.history ht
  exact congrArg State.history (Host.Outcome.next.inj (ht.symm.trans hself))

/-- A refusal does not depend on the history: enabledness does not (`enabled_congr`), and what is not enabled is refused
under its own name. -/
theorem exec_withHistory_refused (h : List Event) {r : Refusal} (hr : exec i s = .refused r) :
    exec i { s with history := h } = .refused r := by
  obtain hnext | href := exec_next_or_refused i { s with history := h }
  · obtain ⟨t, ht⟩ : Enabled i s :=
      (enabled_congr (s := s) (s' := { s with history := h }) rfl rfl rfl rfl).mp hnext
    cases hr.symm.trans ht
  · obtain ⟨t, ht⟩ | hself := exec_next_or_refused i s
    · cases hr.symm.trans ht
    · rw [href, ← hself, hr]

/-- Settles O32: the records are those of `exec_next_history`; independence of the history is `exec_withHistory_next` for
an answer and `exec_withHistory_refused` for a refusal. -/
theorem historyIsAppendOnlyAndUnread : Obligations.HistoryIsAppendOnlyAndUnread := by
  unfold Obligations.HistoryIsAppendOnlyAndUnread
  exact fun i s =>
    ⟨fun _ ht => exec_next_history ht, fun h _ ht => exec_withHistory_next h ht, fun h _ hr => exec_withHistory_refused h hr⟩

end Sys2Proof.Machine
end

section
/-! PROOFS. The invariant `Inv` of R35 and R37 to R40: the launch meets it, every instruction keeps it, so it holds in every
reachable state. -/

namespace Sys2Proof.Machine

variable {i : Instr} {s t : State} {p : Params}

/-- RESET answers in every state (R156). -/
theorem exec_reset (s : State) :
    exec .reset s = .next (record [.resetOut safeGates] (resetFields (outWrite safeGates s))) := rfl

/-- An edge in reset is not noted (R112). -/
theorem noteEdge_of_inReset (hr : s.inReset = true) : noteEdge s = s := if_pos hr

/-- An edge out of reset is pending (R112). -/
theorem noteEdge_of_outOfReset (hr : s.inReset = false) : noteEdge s = { s with pend := true } :=
  if_neg (by simp [hr])

/-- No instruction writes the parameters (R25, R44). -/
theorem exec_next_params (h : exec i s = .next t) : t.params = s.params := by
  obtain ⟨-, rfl⟩ | ⟨v, -, -, rfl⟩ | ⟨-, -, -, -, rfl⟩ | ⟨-, -, -, rfl⟩ | ⟨-, rfl⟩ | ⟨-, rfl⟩ | ⟨-, -, rfl⟩ :=
    exec_next_cases h
  case inr.inl => exact noteEdge_params _
  all_goals rfl

/-- A state reached from a launch carries the parameters it was launched with. -/
theorem Reachable.params_eq (h : Reachable p s) : s.params = p := by
  induction h with
  | launch => rfl
  | exec _ _ _ _ hx ih => exact (exec_next_params hx).trans ih
  | schedule _ _ _ _ ih => exact ih

theorem inv_launchState (hp : p.wf = true) (hall : HallLevels) (script : List Byte) :
    Inv (launchState p hall script) where
  wf := hp
  pair := (Params.wf_row_zero hp).symm
  lines := encodeGates_off.symm
  sampledArmed := nofun
  heldInReset := fun _ => ⟨rfl, rfl, rfl, rfl, rfl, rfl⟩

/-- The invariant does not read the schedule's fields. -/
theorem Inv.of_schedule (h : Inv s) (script : List Byte) (tick : Nat) :
    Inv { s with script := script, tick := tick } :=
  ⟨h.wf, h.pair, h.lines, h.sampledArmed, h.heldInReset⟩

theorem Inv.of_edge (h : Inv s) (v : HallLevels) : Inv (noteEdge { s with hallIn := v }) := by
  obtain hr | hr := Bool.eq_false_or_eq_true s.inReset
  · rw [noteEdge_of_inReset (s := { s with hallIn := v }) hr]
    exact ⟨h.wf, h.pair, h.lines, h.sampledArmed, h.heldInReset⟩
  · rw [noteEdge_of_outOfReset (s := { s with hallIn := v }) hr]
    exact ⟨h.wf, h.pair, h.lines, h.sampledArmed, fun hr' => absurd (hr.symm.trans hr') Bool.false_ne_true⟩

/-- Every instruction keeps the invariant. A commit sets the pair and the lines from one row; RESET sets them to row 0,
which is OFF, and SAFE; the Dispatcher's steps run out of reset only, and the other instructions leave what it reads. -/
theorem Inv.of_exec (h : Inv s) (hx : exec i s = .next t) : Inv t := by
  cases i with
  | edge v =>
    obtain ⟨-, rfl⟩ := exec_edge_next hx
    exact h.of_edge v
  | dispatchSample =>
    obtain ⟨hr, -, -, rfl⟩ := exec_dispatchSample_next hx
    exact ⟨h.wf, h.pair, h.lines, fun _ => hr, fun hr' => absurd (hr.symm.trans hr') Bool.false_ne_true⟩
  | dispatchCommit =>
    obtain ⟨hr, -, rfl⟩ := exec_dispatchCommit_next hx
    exact ⟨h.wf, rfl, rfl, nofun, fun hr' => absurd (hr.symm.trans hr') Bool.false_ne_true⟩
  | reset =>
    obtain rfl := exec_reset_next hx
    exact ⟨h.wf, (Params.wf_row_zero h.wf).symm, encodeGates_off.symm, nofun, fun _ => ⟨rfl, rfl, rfl, rfl, rfl, rfl⟩⟩
  | release =>
    obtain ⟨-, rfl⟩ := exec_release_next hx
    exact ⟨h.wf, h.pair, h.lines, fun _ => rfl, nofun⟩
  | snapshot =>
    obtain rfl := exec_snapshot_next hx
    exact ⟨h.wf, h.pair, h.lines, h.sampledArmed, h.heldInReset⟩
  | _ =>
    obtain rfl := exec_lookup_next rfl hx
    exact ⟨h.wf, h.pair, h.lines, h.sampledArmed, h.heldInReset⟩

theorem Reachable.inv (h : Reachable p s) : Inv s := by
  induction h with
  | launch hall script hp => exact inv_launchState hp hall script
  | exec _ _ _ _ hx ih => exact ih.of_exec hx
  | schedule _ script tick _ ih => exact ih.of_schedule script tick

/-- Settles O2: what RESET answers is `exec_reset`, the reachable clause is the invariant's. -/
theorem resetValuesHoldWhileInReset : Obligations.ResetValuesHoldWhileInReset := by
  unfold Obligations.ResetValuesHoldWhileInReset
  refine ⟨fun s => ⟨_, exec_reset s, ?_⟩, fun _ _ hs => hs.inv.heldInReset, fun s t ht => ?_⟩
  · simp [safeGates, off]
  · obtain ⟨-, rfl⟩ := exec_release_next ht
    exact releaseReset_pend s

/-- Settles O38, by the invariant's clause on the pair. -/
theorem reachablePairIsATableRow : Obligations.ReachablePairIsATableRow := by
  unfold Obligations.ReachablePairIsATableRow
  intro p s hs
  rw [← hs.params_eq]
  exact hs.inv.pair

/-- Settles O39, by the invariant's clause on the lines. -/
theorem reachableLinesCarryTheLastPattern : Obligations.ReachableLinesCarryTheLastPattern := by
  unfold Obligations.ReachableLinesCarryTheLastPattern
  exact fun _ _ hs => hs.inv.lines

/-- Settles O41, by the invariant's clause on SAMPLED. -/
theorem reachableSampledIsOutOfReset : Obligations.ReachableSampledIsOutOfReset := by
  unfold Obligations.ReachableSampledIsOutOfReset
  exact fun _ _ hs => hs.inv.sampledArmed

end Sys2Proof.Machine
end

section
/-! PROOFS. No shoot-through in a reachable state (R39). -/

namespace Sys2Proof.Machine

@[simp] theorem decodeGates_encodeGates (q : Pattern) : decodeGates (encodeGates q) = q := by
  rw [decodeGates, encodeGates, BitVec.xor_assoc, BitVec.xor_self, BitVec.xor_zero]

theorem mem_allLegs (l : Leg) : l ∈ allLegs := by cases l <;> decide

/-- A safe pattern sets no phase's two flags together (R63, R64). -/
theorem not_both_of_isSafe {q : Pattern} (h : isSafe q = true) (l : Leg) :
    ¬(q.getLsbD (2 * legNumber l) = true ∧ q.getLsbD (2 * legNumber l + 1) = true) := by
  have hl := List.all_eq_true.mp h l (mem_allLegs l)
  rintro ⟨hhigh, hlow⟩
  simp [highOn, lowOn, highBit, lowBit, hhigh, hlow] at hl

/-- Settles O40: the lines decode to the diagnostic pattern, which is a row of a lawful table. -/
theorem noReachableShootThrough : Obligations.NoReachableShootThrough := by
  unfold Obligations.NoReachableShootThrough
  intro p s hs l
  have hsafe : isSafe s.diagPattern = true := by
    rw [hs.inv.pair]
    exact Params.wf_row_safe hs.inv.wf s.diagIndex
  rw [hs.inv.lines, decodeGates_encodeGates]
  exact not_both_of_isSafe hsafe l

end Sys2Proof.Machine
end

section
/-! PROOFS. A quiescent core outputs the pattern of the current lines (R41). `Inv` does not tie the pair to the lines, so a
second invariant does: what pend and phase say of the lines, and what the history says of the pair. -/

namespace Sys2Proof.Machine

variable {i : Instr} {s t : State} {p : Params}

@[simp] theorem committedSinceReset_append_commit_hook (h : List Event) (j k : PosIndex) (q r : Pattern) (g : Gates) :
    committedSinceReset (h ++ [.commit j q g, .hook k r]) = true := by
  rw [committedSinceReset, List.foldl_append]; rfl

@[simp] theorem committedSinceReset_append_resetOut (h : List Event) (g : Gates) :
    committedSinceReset (h ++ [.resetOut g]) = false := by
  rw [committedSinceReset, List.foldl_append]; rfl

@[simp] theorem committedSinceReset_append_snap (h : List Event) (w : SnapWord) :
    committedSinceReset (h ++ [.snap w]) = committedSinceReset h := by
  rw [committedSinceReset, List.foldl_append]; rfl

/-- The pair follows the lines: it is behind them only while an edge is pending or a sample waits for its commit, or for as
long as nothing has been committed since the last RESET. -/
structure FollowsLines (s : State) : Prop where
  /-- A RESET is the last output record for as long as reset is asserted. -/
  inResetUncommitted : s.inReset = true → committedSinceReset s.history = false
  /-- Until the first commit after a RESET the index is the reset value. -/
  uncommittedIndex : committedSinceReset s.history = false → s.diagIndex = 0#3
  /-- With no edge since the sample, the latched index is that of the lines. -/
  latchCurrent : s.phase = .sampled → s.pend = false → s.idxLatch = s.hallIn
  /-- Once committed and quiescent, the committed index is that of the lines. -/
  indexCurrent : Quiescent s → committedSinceReset s.history = true → s.diagIndex = s.hallIn
  /-- INITIAL_DISPATCH leaves no quiescent state before the first commit. -/
  initialDispatched : s.params.initialDispatch = true → Quiescent s → committedSinceReset s.history = true

theorem followsLines_launchState (p : Params) (hall : HallLevels) (script : List Byte) :
    FollowsLines (launchState p hall script) where
  inResetUncommitted := fun _ => rfl
  uncommittedIndex := fun _ => rfl
  latchCurrent := nofun
  indexCurrent := nofun
  initialDispatched := fun _ hq => nomatch hq.1

theorem FollowsLines.of_schedule (h : FollowsLines s) (script : List Byte) (tick : Nat) :
    FollowsLines { s with script := script, tick := tick } :=
  ⟨h.inResetUncommitted, h.uncommittedIndex, h.latchCurrent, h.indexCurrent, h.initialDispatched⟩

/-- The returned value of a SNAPSHOT or a LOOKUP row is nothing that the pair's following rests on. -/
theorem FollowsLines.of_answer (h : FollowsLines s) (r : Returned) : FollowsLines (answer r s) :=
  ⟨h.inResetUncommitted, h.uncommittedIndex, h.latchCurrent, h.indexCurrent, h.initialDispatched⟩

theorem FollowsLines.of_record_snap (h : FollowsLines s) (w : SnapWord) : FollowsLines (record [.snap w] s) where
  inResetUncommitted hr := by simpa using h.inResetUncommitted hr
  uncommittedIndex hc := h.uncommittedIndex (by simpa using hc)
  latchCurrent := h.latchCurrent
  indexCurrent hq hc := h.indexCurrent hq (by simpa using hc)
  initialDispatched hd hq := by simpa using h.initialDispatched hd hq

/-- An edge moves the lines: out of reset it is pending, and in reset no sample waits and the core is not quiescent. -/
theorem FollowsLines.of_edge (h : FollowsLines s) (hinv : Inv s) (v : HallLevels) :
    FollowsLines (noteEdge { s with hallIn := v }) := by
  obtain hr | hr := Bool.eq_false_or_eq_true s.inReset
  · have hphase : s.phase ≠ .sampled := fun hp => by simp [hinv.sampledArmed hp] at hr
    have hquiet : ¬Quiescent s := fun hq => by simp [hq.1] at hr
    rw [noteEdge_of_inReset (s := { s with hallIn := v }) hr]
    exact ⟨h.inResetUncommitted, h.uncommittedIndex, fun hp => absurd hp hphase, fun hq => absurd hq hquiet,
      fun _ hq => absurd hq hquiet⟩
  · rw [noteEdge_of_outOfReset (s := { s with hallIn := v }) hr]
    exact ⟨h.inResetUncommitted, h.uncommittedIndex, nofun, fun hq => (nomatch hq.2.1), fun _ hq => nomatch hq.2.1⟩

/-- DISPATCH_SAMPLE latches the lines as they stand. -/
theorem FollowsLines.of_sample (h : FollowsLines s) : FollowsLines (enterDispatch s.hallIn s) where
  inResetUncommitted := h.inResetUncommitted
  uncommittedIndex := h.uncommittedIndex
  latchCurrent := fun _ _ => rfl
  indexCurrent := fun hq => nomatch hq.2.2
  initialDispatched := fun _ hq => nomatch hq.2.2

/-- DISPATCH_COMMIT puts the latched index in the pair; it leaves the core quiescent only when no edge came since the
sample, and the latched index is then that of the lines. -/
theorem FollowsLines.of_commit (h : FollowsLines s) (hr : s.inReset = false) (hp : s.phase = .sampled) :
    FollowsLines (commitIndex s.idxLatch s) where
  inResetUncommitted hr' := by simp [hr] at hr'
  uncommittedIndex hc := by simp at hc
  latchCurrent := nofun
  indexCurrent hq _ := h.latchCurrent hp hq.2.1
  initialDispatched _ _ := by simp

theorem followsLines_after_reset (s : State) :
    FollowsLines (record [.resetOut safeGates] (resetFields (outWrite safeGates s))) where
  inResetUncommitted _ := by simp
  uncommittedIndex _ := rfl
  latchCurrent := nofun
  indexCurrent hq := nomatch hq.1
  initialDispatched _ hq := nomatch hq.1

/-- RELEASE comes after a RESET with no commit between, and gives pend the value INITIAL_DISPATCH. -/
theorem FollowsLines.of_release (h : FollowsLines s) (hinv : Inv s) (hr : s.inReset = true) :
    FollowsLines (releaseReset s) where
  inResetUncommitted := nofun
  uncommittedIndex := h.uncommittedIndex
  latchCurrent hp := by simp [hinv.sampledArmed hp] at hr
  indexCurrent _ hc := by simp [h.inResetUncommitted hr] at hc
  initialDispatched hd hq := absurd (hq.2.1.symm.trans hd) Bool.false_ne_true

theorem FollowsLines.of_exec (h : FollowsLines s) (hinv : Inv s) (hx : exec i s = .next t) : FollowsLines t := by
  cases i with
  | edge v =>
    obtain ⟨-, rfl⟩ := exec_edge_next hx
    exact h.of_edge hinv v
  | dispatchSample =>
    obtain ⟨-, -, -, rfl⟩ := exec_dispatchSample_next hx
    exact h.of_sample
  | dispatchCommit =>
    obtain ⟨hr, hp, rfl⟩ := exec_dispatchCommit_next hx
    exact h.of_commit hr hp
  | snapshot =>
    obtain rfl := exec_snapshot_next hx
    exact (h.of_record_snap _).of_answer _
  | reset =>
    obtain rfl := exec_reset_next hx
    exact followsLines_after_reset s
  | release =>
    obtain ⟨hr, rfl⟩ := exec_release_next hx
    exact h.of_release hinv hr
  | _ =>
    obtain rfl := exec_lookup_next rfl hx
    exact h.of_answer _

theorem Reachable.followsLines (h : Reachable p s) : FollowsLines s := by
  induction h with
  | launch hall script => exact followsLines_launchState p hall script
  | exec _ _ _ hs hx ih => exact ih.of_exec hs.inv hx
  | schedule _ script tick _ ih => exact ih.of_schedule script tick

/-- In a reachable state the lines carry the row of the diagnostic index (R37, R38). -/
theorem Reachable.gate_eq (h : Reachable p s) : s.gate = encodeGates (tableRow p.commTable s.diagIndex) := by
  rw [h.inv.lines, h.inv.pair, h.params_eq]

/-- Settles O42: the index is that of the lines by `FollowsLines`, and the lines carry the index's row by
`Reachable.gate_eq`; row 0 of a lawful table is OFF. -/
theorem quiescentCoreOutputsTheCurrentLines : Obligations.QuiescentCoreOutputsTheCurrentLines := by
  unfold Obligations.QuiescentCoreOutputsTheCurrentLines
  intro p s hs hq
  refine ⟨fun hc => ?_, fun hd => ?_, fun hc => ?_⟩
  · have hindex : s.diagIndex = pack s.hallIn := hs.followsLines.indexCurrent hq hc
    exact ⟨hindex, hindex ▸ hs.gate_eq⟩
  · exact hs.followsLines.initialDispatched (by rw [hs.params_eq, hd]) hq
  · have hindex : s.diagIndex = 0#3 := hs.followsLines.uncommittedIndex hc
    have hwf : p.wf = true := hs.params_eq ▸ hs.inv.wf
    exact ⟨hindex, by rw [hs.gate_eq, hindex, Params.wf_row_zero hwf, encodeGates_off]; rfl⟩

end Sys2Proof.Machine
end

section
/-! PROOFS. The control vector (R71): it is its three bits, it is 0b100 in every reachable in-reset state, and a run
that goes through the other four vectors. -/

namespace Sys2Proof.Machine

variable {s : State} {p : Params}

theorem phaseBit_inj {a b : Phase} : phaseBit a = phaseBit b ↔ a = b := by
  cases a <;> cases b <;> decide

/-- A control vector says in_reset, pend and phase, and nothing else. -/
theorem ctl_eq_iff (r b : Bool) (q : Phase) :
    ctl s = BitVec.ofBool r ++ BitVec.ofBool b ++ BitVec.ofBool (phaseBit q) ↔
      s.inReset = r ∧ s.pend = b ∧ s.phase = q := by
  have ofBits_inj : ∀ x y z x' y' z' : Bool,
      BitVec.ofBool x ++ BitVec.ofBool y ++ BitVec.ofBool z = BitVec.ofBool x' ++ BitVec.ofBool y' ++ BitVec.ofBool z' ↔
        x = x' ∧ y = y' ∧ z = z' := by decide
  rw [ctl, ofBits_inj, phaseBit_inj]

theorem enabled_dispatchSample_iff_ctl : Enabled .dispatchSample s ↔ ctl s = 0b010#3 :=
  enabled_dispatchSample.trans (ctl_eq_iff false true .idle).symm

/-- DISPATCH_COMMIT does not read pend: its two vectors differ in that bit. -/
theorem enabled_dispatchCommit_iff_ctl : Enabled .dispatchCommit s ↔ ctl s = 0b001#3 ∨ ctl s = 0b011#3 := by
  have h001 : ctl s = 0b001#3 ↔ s.inReset = false ∧ s.pend = false ∧ s.phase = .sampled := ctl_eq_iff false false .sampled
  have h011 : ctl s = 0b011#3 ↔ s.inReset = false ∧ s.pend = true ∧ s.phase = .sampled := ctl_eq_iff false true .sampled
  rw [enabled_dispatchCommit, h001, h011]
  cases s.pend <;> simp

/-- RELEASE reads in_reset alone: its vectors are the four with that bit set. -/
theorem enabled_release_iff_ctl :
    Enabled .release s ↔ ctl s = 0b100#3 ∨ ctl s = 0b101#3 ∨ ctl s = 0b110#3 ∨ ctl s = 0b111#3 := by
  have h100 : ctl s = 0b100#3 ↔ s.inReset = true ∧ s.pend = false ∧ s.phase = .idle := ctl_eq_iff true false .idle
  have h101 : ctl s = 0b101#3 ↔ s.inReset = true ∧ s.pend = false ∧ s.phase = .sampled := ctl_eq_iff true false .sampled
  have h110 : ctl s = 0b110#3 ↔ s.inReset = true ∧ s.pend = true ∧ s.phase = .idle := ctl_eq_iff true true .idle
  have h111 : ctl s = 0b111#3 ↔ s.inReset = true ∧ s.pend = true ∧ s.phase = .sampled := ctl_eq_iff true true .sampled
  rw [enabled_release, h100, h101, h110, h111]
  cases s.pend <;> cases s.phase <;> simp

/-- A sample is taken in IDLE and a commit in SAMPLED. -/
theorem not_enabled_sample_and_commit : ¬(Enabled .dispatchSample s ∧ Enabled .dispatchCommit s) := by
  rintro ⟨hsample, hcommit⟩
  obtain ⟨-, -, hidle⟩ := enabled_dispatchSample.mp hsample
  obtain ⟨-, hsampled⟩ := enabled_dispatchCommit.mp hcommit
  cases hidle.symm.trans hsampled

theorem Inv.ctl_of_inReset (h : Inv s) (hr : s.inReset = true) : ctl s = 0b100#3 := by
  obtain ⟨-, hpend, hphase, -⟩ := h.heldInReset hr
  exact (ctl_eq_iff true false .idle).mpr ⟨hr, hpend, hphase⟩

/-- Of the four in-reset vectors a reachable state has 0b100 only. -/
theorem Reachable.ctl_ne_unreachable (h : Reachable p s) : ctl s ≠ 0b101#3 ∧ ctl s ≠ 0b110#3 ∧ ctl s ≠ 0b111#3 := by
  have only_100 : Enabled .release s → ctl s = 0b100#3 := fun he => h.inv.ctl_of_inReset (enabled_release.mp he)
  rw [enabled_release_iff_ctl] at only_100
  refine ⟨fun hc => ?_, fun hc => ?_, fun hc => ?_⟩ <;> simp [hc] at only_100

/-- The launch is at 0b100; release, an edge, the sample and an edge before the commit go through 0b000, 0b010, 0b001
and 0b011. -/
theorem exists_reachable_ctl :
    ∀ c ∈ [0b000#3, 0b001#3, 0b010#3, 0b011#3, 0b100#3], ∃ s, Reachable Params.default s ∧ ctl s = c := by
  have h100 : Reachable Params.default (launchState Params.default 0#3 []) := .launch 0#3 [] (by decide)
  have h000 := h100.exec .release _ _ (exec_release_of_inReset rfl)
  have h010 := h000.exec (.edge 1#3) _ _ (exec_edge_of_ne (by decide))
  have h001 := h010.exec .dispatchSample _ _ (exec_dispatchSample_of_guard rfl rfl rfl)
  have h011 := h001.exec (.edge 5#3) _ _ (exec_edge_of_ne (by decide))
  simp only [List.forall_mem_cons]
  exact ⟨⟨_, h000, rfl⟩, ⟨_, h001, rfl⟩, ⟨_, h010, rfl⟩, ⟨_, h011, rfl⟩, ⟨_, h100, rfl⟩, nofun⟩

/-- Settles O21: the guards as sets of control vectors, the invariant's reset values for the unreachable ones, and a run
through the other five. -/
theorem controlVectorSelectsTheEnabledSteps : Obligations.ControlVectorSelectsTheEnabledSteps := by
  unfold Obligations.ControlVectorSelectsTheEnabledSteps
  exact ⟨fun _ => ⟨enabled_dispatchSample_iff_ctl, enabled_dispatchCommit_iff_ctl, enabled_reset,
      enabled_release_iff_ctl, enabled_edge, enabled_snapshot, not_enabled_sample_and_commit⟩,
    fun _ _ hs => hs.ctl_ne_unreachable, exists_reachable_ctl⟩

end Sys2Proof.Machine
end

section
/-! PROOFS. The sampled index (R80): PACK as a number and as a bijection, and the index DISPATCH_SAMPLE latches. -/

namespace Sys2Proof.Machine

variable {s t : State}

/-- The value of PACK in the three line levels, checked on the eight line vectors (R80). -/
theorem toNat_pack (v : HallLevels) :
    (pack v).toNat = (v.getLsbD 0).toNat + 2 * (v.getLsbD 1).toNat + 4 * (v.getLsbD 2).toNat := by
  revert v; decide

/-- Every index is PACK of exactly one line vector: PACK is the identity on the three bits (`pack_eq`). -/
theorem existsUnique_pack_eq (i : PosIndex) : ∃ v : HallLevels, pack v = i ∧ ∀ w, pack w = i → w = v :=
  ⟨i, pack_eq i, fun w hw => (pack_eq w).symm.trans hw⟩

/-- DISPATCH_SAMPLE latches PACK of the lines as they stand (R81, R116). -/
theorem exec_dispatchSample_idxLatch (h : exec .dispatchSample s = .next t) : t.idxLatch = pack s.hallIn := by
  obtain ⟨-, -, -, rfl⟩ := exec_dispatchSample_next h
  rw [enterDispatch_idxLatch, pack_eq]

/-- Settles O15: the latched index is PACK of the lines, whose value is `toNat_pack`; the bijection is
`existsUnique_pack_eq`. -/
theorem sampledIndexIsThePackedLines : Obligations.SampledIndexIsThePackedLines := by
  unfold Obligations.SampledIndexIsThePackedLines
  refine ⟨fun s t ht => ?_, existsUnique_pack_eq⟩
  rw [exec_dispatchSample_idxLatch ht, toNat_pack]

end Sys2Proof.Machine
end

section
/-! PROOFS. Which configurations launch (R88, R89, R139): the table's checks as statements on the bits of its rows, and
that a configuration the launch refuses has no reachable state. -/

namespace Sys2Proof.Machine

variable {p : Params} {hall : HallLevels} {script : List Byte} {s : State}

/-- Safe (R64), on the two flags of each phase (R63). -/
theorem isSafe_iff (q : Pattern) :
    isSafe q = true ↔ ∀ l : Leg, (q.getLsbD (2 * legNumber l) && q.getLsbD (2 * legNumber l + 1)) = false := by
  rw [isSafe, List.all_eq_true]
  constructor
  · intro h l
    exact (Bool.not_eq_true' _).mp (h l (mem_allLegs l))
  · intro h l _
    exact (Bool.not_eq_true' _).mpr (h l)

/-- The pattern that enables the high side of one phase and the low side of another, and no other switch (R63). -/
def legPair (h l : Leg) : Pattern := (1#6 <<< (2 * legNumber h)) ||| (1#6 <<< (2 * legNumber l + 1))

theorem isConducting_legPair {h l : Leg} (hne : h ≠ l) : isConducting (legPair h l) = true := by
  have all_pairs : ∀ h ∈ allLegs, ∀ l ∈ allLegs, h ≠ l → isConducting (legPair h l) = true := by decide
  exact all_pairs h (mem_allLegs h) l (mem_allLegs l) hne

/-- The one phase of each filter of `isConducting` gives the pair, checked on the 64 patterns. -/
theorem exists_legPair_of_isConducting {q : Pattern} (hq : isConducting q = true) :
    ∃ h l, h ≠ l ∧ q = legPair h l := by
  have all_patterns : ∀ q : Pattern, isConducting q = true →
      ∃ h ∈ allLegs, ∃ l ∈ allLegs, h ≠ l ∧ q = legPair h l := by decide
  obtain ⟨h, -, l, -, hpair⟩ := all_patterns q hq
  exact ⟨h, l, hpair⟩

/-- Conducting (R64): one high side and one low side of two distinct phases. -/
theorem isConducting_iff (q : Pattern) : isConducting q = true ↔ ∃ h l, h ≠ l ∧ q = legPair h l := by
  refine ⟨exists_legPair_of_isConducting, ?_⟩
  rintro ⟨h, l, hne, rfl⟩
  exact isConducting_legPair hne

/-- The invalid indices are 0 and 7 (R62). -/
theorem isValidIndex_iff (i : PosIndex) : isValidIndex i = true ↔ i ≠ 0#3 ∧ i ≠ 7#3 := by
  simp only [isValidIndex, Bool.and_eq_true, decide_eq_true_eq]

/-- The rows of R89 make the table pass its check. -/
theorem tableIsClassed_of_rows {t : CommTable}
    (hvalid : ∀ i, i ≠ 0#3 → i ≠ 7#3 → isConducting (tableRow t i) = true)
    (h0 : tableRow t 0#3 = off) (h7 : tableRow t 7#3 = off) : tableIsClassed t = true := by
  rw [tableIsClassed, List.all_eq_true]
  intro i _
  split
  case isTrue hi =>
    obtain ⟨hi0, hi7⟩ := (isValidIndex_iff i).mp hi
    exact hvalid i hi0 hi7
  case isFalse hi =>
    rw [isValidIndex_iff, not_and_or, not_not, not_not] at hi
    obtain rfl | rfl := hi
    · exact decide_eq_true h0
    · exact decide_eq_true h7

/-- With PIN_MAP open a configuration may be launched exactly when its rows obey R88 and R89. -/
theorem wf_iff_rows (hpin : p.pinMap = none) :
    p.wf = true ↔
      (∀ i, isSafe (tableRow p.commTable i) = true) ∧
      (∀ i, i ≠ 0#3 → i ≠ 7#3 → isConducting (tableRow p.commTable i) = true) ∧
      tableRow p.commTable 0#3 = off ∧ tableRow p.commTable 7#3 = off := by
  constructor
  · intro hp
    exact ⟨Params.wf_row_safe hp, fun i h0 h7 => Params.wf_row_conducting hp ((isValidIndex_iff i).mpr ⟨h0, h7⟩),
      Params.wf_row_zero hp, Params.wf_row_seven hp⟩
  · rintro ⟨hsafe, hvalid, h0, h7⟩
    have htable : tableIsSafe p.commTable = true := List.all_eq_true.mpr fun i _ => hsafe i
    simp [Params.wf, htable, tableIsClassed_of_rows hvalid h0 h7, hpin]

theorem launch_of_wf (hp : p.wf = true) : launch p hall script = .next (launchState p hall script) := if_pos hp

theorem launch_of_not_wf (hp : ¬p.wf = true) : launch p hall script = .refused .configurationRefused := if_neg hp

theorem exists_launch_eq_next_iff : (∃ s, launch p hall script = .next s) ↔ p.wf = true := by
  refine ⟨fun ⟨s, hs⟩ => ?_, fun hp => ⟨_, launch_of_wf hp⟩⟩
  by_contra hp
  rw [launch_of_not_wf hp] at hs
  nomatch hs

/-- Only a configuration that may be launched has reachable states. -/
theorem Reachable.wf (h : Reachable p s) : p.wf = true := by
  rw [← h.params_eq]
  exact h.inv.wf

/-- Settles O4: the launch asks for `Params.wf`, which with PIN_MAP open is R88 and R89 row by row (`wf_iff_rows`); safe
and conducting rows are read on their bits, and a reachable state needs a configuration that may be launched. -/
theorem launchAcceptsExactlyTheLawfulTables : Obligations.LaunchAcceptsExactlyTheLawfulTables := by
  unfold Obligations.LaunchAcceptsExactlyTheLawfulTables
  intro p hall script hpin
  constructor
  · rw [exists_launch_eq_next_iff, wf_iff_rows hpin]
    simp only [isSafe_iff, isConducting_iff, legPair, off]
  · intro hnone
    have hp : ¬p.wf = true := fun hp => hnone _ (launch_of_wf hp)
    exact ⟨launch_of_not_wf hp, fun _ hs => hp hs.wf⟩

end Sys2Proof.Machine
end

section
/-! PROOFS. The gate lines (42_driver.md): what they carry after an instruction, and the polarity of each line. -/

namespace Sys2Proof.Machine

variable {i : Instr} {s t : State}

/-! ### Which gate vectors are driven (R106) -/

theorem exec_dispatchCommit_gate (h : exec .dispatchCommit s = .next t) :
    t.gate = encodeGates (tableRow s.params.commTable s.idxLatch) := by
  obtain ⟨-, -, rfl⟩ := exec_dispatchCommit_next h
  exact commitIndex_gate s.idxLatch s

theorem exec_reset_gate (h : exec .reset s = .next t) : t.gate = safeGates := by
  obtain rfl := exec_reset_next h
  rfl

/-- The Dispatcher's commit and RST's RESET are the only writers of the gate lines. -/
theorem exec_next_gate_of_ne (hcommit : i ≠ .dispatchCommit) (hreset : i ≠ .reset) (h : exec i s = .next t) :
    t.gate = s.gate := by
  obtain ⟨-, rfl⟩ | ⟨v, -, -, rfl⟩ | ⟨-, -, -, -, rfl⟩ | ⟨hi, -⟩ | ⟨-, rfl⟩ | ⟨hi, -⟩ | ⟨-, -, rfl⟩ :=
    exec_next_cases h
  case inr.inl => exact noteEdge_gate _
  case inr.inr.inr.inl => exact absurd hi hcommit
  case inr.inr.inr.inr.inr.inl => exact absurd hi hreset
  all_goals rfl

/-- Settles O35: a commit drives a row (`exec_dispatchCommit_gate`), RESET drives SAFE (`exec_reset_gate`), no other
instruction drives anything, and a reachable state's lines carry the row of its diagnostic index. -/
theorem onlyRowsOrSafeAreDriven : Obligations.OnlyRowsOrSafeAreDriven := by
  unfold Obligations.OnlyRowsOrSafeAreDriven
  refine ⟨fun _ _ => exec_dispatchCommit_gate, fun i s t h => ?_, fun _ s hs => .inr ⟨s.diagIndex, hs.gate_eq⟩⟩
  by_cases hcommit : i = .dispatchCommit
  · subst hcommit
    exact .inr (.inr ⟨s.idxLatch, exec_dispatchCommit_gate h⟩)
  · by_cases hreset : i = .reset
    · subst hreset
      exact .inr (.inl (exec_reset_gate h))
    · exact .inl (exec_next_gate_of_ne hcommit hreset h)

/-! ### Polarity (R104) -/

/-- ENCODE puts a line at its on level where the pattern enables its switch, and at its off level elsewhere. -/
theorem gateLevel_encodeGates (q : Pattern) (w : Switch) :
    gateLevel (encodeGates q) w = (q.getLsbD (switchBit w) == onLevel w) := by
  rw [← switchedOn_encodeGates q w, switchedOn]
  cases gateLevel (encodeGates q) w <;> cases onLevel w <;> rfl

/-- High-side lines are active-low. -/
theorem gateLevel_encodeGates_highSwitch (q : Pattern) (l : Leg) :
    gateLevel (encodeGates q) (highSwitch l) = !highOn q l := by
  cases l <;> exact (gateLevel_encodeGates q _).trans (beq_false _)

/-- Low-side lines are active-high. -/
theorem gateLevel_encodeGates_lowSwitch (q : Pattern) (l : Leg) :
    gateLevel (encodeGates q) (lowSwitch l) = lowOn q l := by
  cases l <;> exact (gateLevel_encodeGates q _).trans (beq_true _)

/-- SAFE puts every line at its off level (R67). -/
theorem gateLevel_safeGates (w : Switch) : gateLevel safeGates w = offLevel w := by
  cases w <;> rfl

/-- After a commit the lines carry the pattern that the commit put in the diagnostic pair. -/
theorem exec_dispatchCommit_gate_eq_diagPattern (h : exec .dispatchCommit s = .next t) :
    t.gate = encodeGates t.diagPattern := by
  obtain ⟨-, -, rfl⟩ := exec_dispatchCommit_next h
  rw [commitIndex_gate, commitIndex_diagPattern]

/-- Settles O16: after a commit by `gateLevel_encodeGates_highSwitch` and `gateLevel_encodeGates_lowSwitch` at each phase,
after RESET by `gateLevel_safeGates` at each line. -/
theorem drivenLinesFollowThePolarity : Obligations.DrivenLinesFollowThePolarity := by
  unfold Obligations.DrivenLinesFollowThePolarity
  constructor
  · intro s t h
    rw [exec_dispatchCommit_gate_eq_diagPattern h]
    exact ⟨gateLevel_encodeGates_highSwitch _ .a, gateLevel_encodeGates_lowSwitch _ .a,
      gateLevel_encodeGates_highSwitch _ .b, gateLevel_encodeGates_lowSwitch _ .b,
      gateLevel_encodeGates_highSwitch _ .c, gateLevel_encodeGates_lowSwitch _ .c⟩
  · intro s t h
    rw [exec_reset_gate h]
    exact ⟨gateLevel_safeGates .ah, gateLevel_safeGates .al, gateLevel_safeGates .bh, gateLevel_safeGates .bl,
      gateLevel_safeGates .ch, gateLevel_safeGates .cl⟩

/-! ### DECODE and ENCODE (R102) -/

/-- Both are XOR with POL, so this is `decodeGates_encodeGates` read the other way round. -/
@[simp] theorem encodeGates_decodeGates (g : Gates) : encodeGates (decodeGates g) = g := decodeGates_encodeGates g

theorem commandsShootThrough_iff (g : Gates) :
    commandsShootThrough g = true ↔
      ∃ l : Leg, switchedOn g (highSwitch l) = true ∧ switchedOn g (lowSwitch l) = true := by
  simp [commandsShootThrough, mem_allLegs]

/-- A gate vector commands shoot-through exactly when its decoded pattern is not safe. -/
theorem commandsShootThrough_eq_not_isSafe (g : Gates) : commandsShootThrough g = !isSafe (decodeGates g) := by
  rw [← commandsShootThrough_encodeGates, encodeGates_decodeGates]

/-- Settles O17: both round trips, and `commandsShootThrough_eq_not_isSafe` read phase by phase. -/
theorem decodeUndoesEncode : Obligations.DecodeUndoesEncode := by
  unfold Obligations.DecodeUndoesEncode
  refine ⟨decodeGates_encodeGates, encodeGates_decodeGates, fun g => ?_⟩
  rw [← commandsShootThrough_iff, commandsShootThrough_eq_not_isSafe, Bool.not_eq_true']

end Sys2Proof.Machine
end

section
/-! PROOFS. The steps of one dispatch (43_dispatcher.md sections 1 and 2): EDGE, DISPATCH_SAMPLE and DISPATCH_COMMIT as
functions of the state, each with its refusal, and the dispatch that a sample and its commit make together. -/

namespace Sys2Proof.Machine

variable {i : Instr} {s t : State} {v : HallLevels}

/-! ### Each step -/

/-- An instruction that is not enabled is refused under its own name. -/
theorem exec_refused_of_not_enabled (h : ¬Enabled i s) : exec i s = .refused (.guardFails i.row.mnemonic) :=
  (exec_next_or_refused i s).resolve_left h

theorem exec_edge_of_inReset (hr : s.inReset = true) (hv : v ≠ s.hallIn) :
    exec (.edge v) s = .next { s with hallIn := v } := by
  rw [exec_edge_of_ne hv, noteEdge_of_inReset (s := { s with hallIn := v }) hr]

theorem exec_edge_of_outOfReset (hr : s.inReset = false) (hv : v ≠ s.hallIn) :
    exec (.edge v) s = .next { s with hallIn := v, pend := true } := by
  rw [exec_edge_of_ne hv, noteEdge_of_outOfReset (s := { s with hallIn := v }) hr]

/-- The inversion of EDGE with reset released: the edge is pending. -/
theorem exec_edge_next_of_outOfReset (hr : s.inReset = false) (h : exec (.edge v) s = .next t) :
    t = { s with hallIn := v, pend := true } := by
  obtain ⟨hv, -⟩ := exec_edge_next h
  exact Host.Outcome.next.inj (h.symm.trans (exec_edge_of_outOfReset hr hv))

/-- Settles O6: the two answers are `noteEdge` in and out of reset; the lines' own value is no enabled edge. -/
theorem edgeMovesTheLinesAndNotesTheEdge : Obligations.EdgeMovesTheLinesAndNotesTheEdge := by
  unfold Obligations.EdgeMovesTheLinesAndNotesTheEdge
  intro v s
  refine ⟨fun hv hr => exec_edge_of_outOfReset hr hv, fun hv hr => exec_edge_of_inReset hr hv, fun hv => ?_⟩
  exact exec_refused_of_not_enabled fun he => (enabled_edge v).mp he hv

/-- Settles O26: what EDGE answers is `noteEdge` of the moved lines, whose other fields are those of Laws/State. -/
theorem edgeChangesNoOutput : Obligations.EdgeChangesNoOutput := by
  unfold Obligations.EdgeChangesNoOutput
  intro v s t h
  obtain ⟨-, rfl⟩ := exec_edge_next h
  simp

/-- Settles O7: `enterDispatch` of the lines where the guard holds, a refusal elsewhere. -/
theorem sampleLatchesTheLinesAndClearsPend : Obligations.SampleLatchesTheLinesAndClearsPend := by
  unfold Obligations.SampleLatchesTheLinesAndClearsPend
  refine fun s => ⟨fun ⟨hr, hp, hq⟩ => exec_dispatchSample_of_guard hr hp hq, fun hguard => ?_⟩
  exact exec_refused_of_not_enabled (mt enabled_dispatchSample.mp hguard)

/-- Settles O8: `commitIndex` of the latched index where the guard holds, a refusal elsewhere. -/
theorem commitWritesTheRowOfTheLatchedIndex : Obligations.CommitWritesTheRowOfTheLatchedIndex := by
  unfold Obligations.CommitWritesTheRowOfTheLatchedIndex
  refine fun s => ⟨fun ⟨hr, hq⟩ => exec_dispatchCommit_of_guard hr hq, fun hguard => ?_⟩
  exact exec_refused_of_not_enabled (mt enabled_dispatchCommit.mp hguard)

/-- Settles O43: the recorded word pairs the diagnostic index with the diagnostic pattern, which in a reachable state is the
index's row (`Inv.pair`). -/
theorem snapshotPairIsConsistent : Obligations.SnapshotPairIsConsistent := by
  unfold Obligations.SnapshotPairIsConsistent
  intro p s hs
  refine ⟨_, pairWord s.diagIndex s.diagPattern, rfl, rfl, ?_⟩
  change wordPattern (pairWord s.diagIndex s.diagPattern) =
    tableRow p.commTable (wordIndex (pairWord s.diagIndex s.diagPattern))
  rw [wordPattern_pairWord, wordIndex_pairWord, ← hs.params_eq]
  exact hs.inv.pair

/-! ### A dispatch -/

/-- The records of one commit (R16, R57). -/
def commitRecords (tbl : CommTable) (j : PosIndex) : List Event :=
  [.commit j (tableRow tbl j) (encodeGates (tableRow tbl j)), .hook j (tableRow tbl j)]

/-- The state that a sample of the lines and its commit leave. -/
def afterDispatch (s : State) : State := commitIndex s.hallIn (enterDispatch s.hallIn s)

@[simp] theorem afterDispatch_hallIn (s : State) : (afterDispatch s).hallIn = s.hallIn := rfl
@[simp] theorem afterDispatch_gate (s : State) :
    (afterDispatch s).gate = encodeGates (tableRow s.params.commTable s.hallIn) := rfl
@[simp] theorem afterDispatch_pend (s : State) : (afterDispatch s).pend = false := rfl
@[simp] theorem afterDispatch_phase (s : State) : (afterDispatch s).phase = .idle := rfl
@[simp] theorem afterDispatch_diagIndex (s : State) : (afterDispatch s).diagIndex = s.hallIn := rfl
@[simp] theorem afterDispatch_diagPattern (s : State) :
    (afterDispatch s).diagPattern = tableRow s.params.commTable s.hallIn := rfl
@[simp] theorem afterDispatch_inReset (s : State) : (afterDispatch s).inReset = s.inReset := rfl
@[simp] theorem afterDispatch_history (s : State) :
    (afterDispatch s).history = s.history ++ commitRecords s.params.commTable s.hallIn := rfl
@[simp] theorem afterDispatch_params (s : State) : (afterDispatch s).params = s.params := rfl

theorem quiescent_afterDispatch (hr : s.inReset = false) : Quiescent (afterDispatch s) := ⟨hr, rfl, rfl⟩

/-- The commit right after a sample of s completes the dispatch. -/
theorem exec_dispatchCommit_enterDispatch (hr : s.inReset = false) :
    exec .dispatchCommit (enterDispatch s.hallIn s) = .next (afterDispatch s) :=
  exec_dispatchCommit_of_guard (s := enterDispatch s.hallIn s) hr rfl

/-- No commit comes without a sample (R120). -/
theorem not_enabled_dispatchCommit_of_idle (hq : s.phase = .idle) : ¬Enabled .dispatchCommit s := fun he => by
  obtain ⟨-, hsampled⟩ := enabled_dispatchCommit.mp he
  cases hq.symm.trans hsampled

/-- Settles O48: SAMPLED is not IDLE; the edge is pending through the commit, which leaves IDLE. -/
theorem dispatchesDoNotNest : Obligations.DispatchesDoNotNest := by
  unfold Obligations.DispatchesDoNotNest
  intro s hsampled
  refine ⟨exec_refused_of_not_enabled fun he => ?_, fun hr v hv => ?_⟩
  · obtain ⟨-, -, hidle⟩ := enabled_dispatchSample.mp he
    cases hidle.symm.trans hsampled
  · exact ⟨_, _, exec_edge_of_outOfReset hr hv, rfl, rfl, exec_dispatchCommit_of_guard hr hsampled, rfl,
      enabled_dispatchSample.mpr ⟨hr, rfl, rfl⟩⟩

/-- Settles O49: the commit in the window writes the row of the old lines, which a lawful table makes safe, and leaves IDLE
with the edge pending; the dispatch that follows is `afterDispatch` on the new lines. -/
theorem staleCommitIsFollowedByAFreshDispatch : Obligations.StaleCommitIsFollowedByAFreshDispatch := by
  unfold Obligations.StaleCommitIsFollowedByAFreshDispatch
  intro s v hwf hr hp hq hv
  have hsafe : commandsShootThrough (encodeGates (tableRow s.params.commTable s.hallIn)) = false := by
    rw [commandsShootThrough_encodeGates, Params.wf_row_safe hwf, Bool.not_true]
  exact ⟨_, _, _, _, _, exec_dispatchSample_of_guard hr hp hq,
    exec_edge_of_outOfReset (s := enterDispatch s.hallIn s) hr hv, exec_dispatchCommit_of_guard hr rfl, rfl, rfl, hsafe,
    not_enabled_dispatchCommit_of_idle rfl, exec_dispatchSample_of_guard hr rfl rfl, exec_dispatchCommit_enterDispatch hr,
    quiescent_afterDispatch hr, rfl, rfl⟩

/-- Settles O50: a lawful table has OFF in the rows of both invalid readings, so the dispatch, which is that of any index,
drives SAFE. -/
theorem invalidIndexCommitsAllOff : Obligations.InvalidIndexCommitsAllOff := by
  unfold Obligations.InvalidIndexCommitsAllOff
  intro s hwf hr hp hq hlines
  have hrow : tableRow s.params.commTable s.hallIn = off := by
    obtain h0 | h7 := hlines
    · rw [h0, Params.wf_row_zero hwf]
    · rw [h7, Params.wf_row_seven hwf]
  refine ⟨_, _, exec_dispatchSample_of_guard hr hp hq, exec_dispatchCommit_enterDispatch hr, ?_, rfl, hrow, ?_, rfl, rfl,
    hr, fun v hv => ⟨_, exec_edge_of_outOfReset hr hv, enabled_dispatchSample.mpr ⟨hr, rfl, rfl⟩⟩⟩
  · rw [afterDispatch_gate, hrow, encodeGates_off, safeGates]
  · rw [afterDispatch_history, commitRecords, hrow, encodeGates_off, safeGates, off]

end Sys2Proof.Machine
end

section
/-! PROOFS. Runs of dispatches: edges before a dispatch coalesce (R115), a dispatch of the same lines changes nothing on
them (R132), and a rotation of the lines makes one dispatch for each edge (R133). -/

namespace Sys2Proof.Machine

variable {i : Instr} {is : List Instr} {s t : State} {v : HallLevels} {vs : List HallLevels}

/-- The first instruction of a run that answers answers, and the others run from there. -/
theorem runSteps_cons_next (h : runSteps (i :: is) s = .next t) :
    ∃ u, exec i s = .next u ∧ runSteps is u = .next t := by
  rw [runSteps] at h
  split at h
  case h_1 u hu => exact ⟨u, hu, h⟩
  all_goals cases h

theorem runSteps_cons_of_next {u : State} (h : exec i s = .next u) : runSteps (i :: is) s = runSteps is u := by
  rw [runSteps, h]

theorem runSteps_append_of_next {js : List Instr} {u : State} (h : runSteps is s = .next u) :
    runSteps (is ++ js) s = runSteps js u := by
  rw [runSteps_append, h]

/-- A dispatch that answers leaves `afterDispatch`. -/
theorem runSteps_dispatch_next (h : runSteps [.dispatchSample, .dispatchCommit] s = .next t) : t = afterDispatch s := by
  obtain ⟨a, ha, h⟩ := runSteps_cons_next h
  obtain ⟨b, hb, h⟩ := runSteps_cons_next h
  obtain ⟨-, -, -, rfl⟩ := exec_dispatchSample_next ha
  obtain ⟨-, -, rfl⟩ := exec_dispatchCommit_next hb
  exact (Host.Outcome.next.inj h).symm

/-- A dispatch answers where its sample is enabled. -/
theorem runSteps_dispatch_of_guard (hr : s.inReset = false) (hp : s.pend = true) (hq : s.phase = .idle) :
    runSteps [.dispatchSample, .dispatchCommit] s = .next (afterDispatch s) := by
  rw [runSteps_cons_of_next (exec_dispatchSample_of_guard hr hp hq),
    runSteps_cons_of_next (exec_dispatchCommit_enterDispatch hr)]
  rfl

/-! ### Edges coalesce (R115) -/

/-- Edges out of reset leave what the last alone would: pend is one bit. -/
theorem runSteps_edges_next (hr : s.inReset = false) (h : runSteps ((v :: vs).map .edge) s = .next t) :
    t = { s with hallIn := (v :: vs).getLast (List.cons_ne_nil v vs), pend := true } := by
  induction vs generalizing v s with
  | nil =>
    obtain ⟨u, hu, h⟩ := runSteps_cons_next h
    obtain rfl := exec_edge_next_of_outOfReset hr hu
    exact (Host.Outcome.next.inj h).symm
  | cons w ws ih =>
    obtain ⟨u, hu, h⟩ := runSteps_cons_next h
    obtain rfl := exec_edge_next_of_outOfReset hr hu
    exact ih (s := { s with hallIn := v, pend := true }) hr h

/-- Settles O46: the edges are `runSteps_edges_next`; the dispatch takes the pending edge, so it leaves the core quiescent. -/
theorem edgesCoalesceIntoOneDispatch : Obligations.EdgesCoalesceIntoOneDispatch := by
  unfold Obligations.EdgesCoalesceIntoOneDispatch
  intro v vs s t hr h
  obtain rfl := runSteps_edges_next hr h
  refine ⟨rfl, fun hq => ⟨_, _, exec_dispatchSample_of_guard hr rfl hq, rfl, exec_dispatchCommit_enterDispatch hr,
    fun he => ?_⟩⟩
  obtain ⟨-, hpend, -⟩ := enabled_dispatchSample.mp he
  cases hpend

/-! ### A second dispatch of the same lines (R132) -/

/-- Edges and snapshots leave the gate lines and the parameters. -/
theorem runSteps_edges_and_snapshots_keep (his : ∀ i ∈ is, (∃ v, i = .edge v) ∨ i = .snapshot)
    (h : runSteps is s = .next t) : t.gate = s.gate ∧ t.params = s.params := by
  refine runSteps_keeps (P := fun u => u.gate = s.gate ∧ u.params = s.params) (fun i hi u w hu hx => ?_) ⟨rfl, rfl⟩ h
  obtain ⟨hgate, hparams⟩ := hu
  have hstep : w.gate = u.gate := by
    obtain ⟨v, rfl⟩ | rfl := his i hi
    · exact exec_next_gate_of_ne (i := .edge v) nofun nofun hx
    · exact exec_next_gate_of_ne (i := .snapshot) nofun nofun hx
  exact ⟨hstep.trans hgate, (exec_next_params hx).trans hparams⟩

/-- Settles O51: what a dispatch commits depends on the lines and the table alone (`afterDispatch`), and nothing between the
two dispatches drives the gate lines. -/
theorem repeatedDispatchIsIdempotent : Obligations.RepeatedDispatchIsIdempotent := by
  unfold Obligations.RepeatedDispatchIsIdempotent
  intro s b c d is hb his hc hlines hd
  obtain rfl := runSteps_dispatch_next hb
  obtain rfl := runSteps_dispatch_next hd
  obtain ⟨hgate, hparams⟩ := runSteps_edges_and_snapshots_keep his hc
  simp [hgate, hparams, hlines]

/-! ### A rotation of the lines (R133) -/

/-- The state that an edge and its dispatch leave. -/
def afterHall (s : State) (v : HallLevels) : State := afterDispatch { s with hallIn := v, pend := true }

theorem runSteps_hall (hq : Quiescent s) (hv : v ≠ s.hallIn) : runSteps (expand (.hall v)) s = .next (afterHall s v) := by
  obtain ⟨hr, -, hidle⟩ := hq
  rw [expand, runSteps_cons_of_next (exec_edge_of_outOfReset hr hv)]
  exact runSteps_dispatch_of_guard (s := { s with hallIn := v, pend := true }) hr rfl hidle

theorem quiescent_afterHall (hq : Quiescent s) (v : HallLevels) : Quiescent (afterHall s v) :=
  quiescent_afterDispatch hq.1

theorem quiescent_foldl_afterHall (hq : Quiescent s) (vs : List HallLevels) : Quiescent (vs.foldl afterHall s) := by
  induction vs generalizing s with
  | nil => exact hq
  | cons v vs ih => exact ih (quiescent_afterHall hq v)

/-- From a quiescent state, lines that move at every edge make one dispatch after another. -/
theorem runSteps_halls (hq : Quiescent s) (hmoves : List.IsChain (· ≠ ·) (s.hallIn :: vs)) :
    runSteps (expandAll (vs.map .hall)) s = .next (vs.foldl afterHall s) := by
  induction vs generalizing s with
  | nil => rfl
  | cons v vs ih =>
    obtain ⟨hv, hmoves⟩ := List.isChain_cons_cons.mp hmoves
    rw [List.map_cons, expandAll, List.flatMap_cons, runSteps_append_of_next (runSteps_hall hq hv.symm)]
    exact ih (quiescent_afterHall hq v) hmoves

/-- Each edge of the rotation has its one Commit and Hook. -/
theorem foldl_afterHall_history (vs : List HallLevels) (s : State) :
    (vs.foldl afterHall s).history = s.history ++ vs.flatMap (commitRecords s.params.commTable) := by
  induction vs generalizing s with
  | nil => exact (List.append_nil _).symm
  | cons v vs ih =>
    rw [List.foldl_cons, ih, List.flatMap_cons, ← List.append_assoc]
    rfl

/-- Settles O52: the six edges each move the lines, so the run is `runSteps_halls`; the records and the gate vectors are the
default table's rows 5, 4, 6, 2, 3 and 1. -/
theorem forwardRotationMakesSixCommits : Obligations.ForwardRotationMakesSixCommits := by
  unfold Obligations.ForwardRotationMakesSixCommits
  intro s htable hq hlines _
  have hmoves : List.IsChain (· ≠ ·) (s.hallIn :: [5#3, 4#3, 6#3, 2#3, 3#3, 1#3]) := by
    rw [hlines]
    decide
  have hrecords := foldl_afterHall_history [5#3, 4#3, 6#3, 2#3, 3#3, 1#3] s
  have hgate : ([5#3, 4#3, 6#3, 2#3, 3#3, 1#3].foldl afterHall s).gate =
      encodeGates (tableRow s.params.commTable 1#3) := rfl
  rw [htable] at hrecords hgate
  exact ⟨_, runSteps_halls hq hmoves, hrecords, hgate, quiescent_foldl_afterHall hq _, by decide⟩

end Sys2Proof.Machine
end

section
/-! PROOFS. RST's two steps (R156, R158) and what reset holds off (R157). -/

namespace Sys2Proof.Machine

variable {s : State}

/-- Settles O10: `exec_reset` with its three updates written out as fields. -/
theorem resetDrivesSafeFromEveryState : Obligations.ResetDrivesSafeFromEveryState := by
  unfold Obligations.ResetDrivesSafeFromEveryState
  exact exec_reset

/-- Settles O11: RELEASE answers `releaseReset` in reset, and out of reset it is not enabled. -/
theorem releaseArmsTheCore : Obligations.ReleaseArmsTheCore := by
  unfold Obligations.ReleaseArmsTheCore
  refine fun s => ⟨exec_release_of_inReset, fun hr => exec_refused_of_not_enabled fun he => ?_⟩
  exact Bool.false_ne_true (hr.symm.trans (enabled_release.mp he))

theorem not_enabled_dispatchSample_of_inReset (hr : s.inReset = true) : ¬Enabled .dispatchSample s := fun he => by
  obtain ⟨hr', -⟩ := enabled_dispatchSample.mp he
  exact Bool.false_ne_true (hr'.symm.trans hr)

theorem not_enabled_dispatchCommit_of_inReset (hr : s.inReset = true) : ¬Enabled .dispatchCommit s := fun he => by
  obtain ⟨hr', -⟩ := enabled_dispatchCommit.mp he
  exact Bool.false_ne_true (hr'.symm.trans hr)

/-- The pair's reset values, read as one snapshot word. -/
theorem Inv.diagRead_of_inReset (h : Inv s) (hr : s.inReset = true) : diagRead s = 0x000#9 := by
  obtain ⟨-, -, -, -, hindex, hpattern⟩ := h.heldInReset hr
  rw [diagRead, hindex, hpattern]
  rfl

/-- Settles O45: both DISP guards ask for in_reset = 0, and the rest are the reset values that `Inv` keeps in reset. -/
theorem resetHoldsOffDispatchAndEdges : Obligations.ResetHoldsOffDispatchAndEdges := by
  unfold Obligations.ResetHoldsOffDispatchAndEdges
  intro p s hs hr
  obtain ⟨hgate, hpend, -⟩ := hs.inv.heldInReset hr
  refine ⟨not_enabled_dispatchSample_of_inReset hr, not_enabled_dispatchCommit_of_inReset hr,
    fun v hv => ⟨_, exec_edge_of_inReset hr hv, rfl, hpend⟩, ⟨_, rfl, ?_⟩, hgate⟩
  rw [answer_history, record_history, hs.inv.diagRead_of_inReset hr]

end Sys2Proof.Machine
end

section
/-! PROOFS. From RELEASE to the first commit (R159): nothing but a commit moves the lines away from SAFE, and with
INITIAL_DISPATCH false nothing but an edge makes a dispatch due. -/

namespace Sys2Proof.Machine

variable {i j : Instr} {is : List Instr} {s t : State}

/-- Without a commit, SAFE lines stay SAFE: RESET drives SAFE and the other instructions drive nothing. -/
theorem exec_next_gate_safe (hcommit : i ≠ .dispatchCommit) (hs : s.gate = safeGates) (h : exec i s = .next t) :
    t.gate = safeGates := by
  by_cases hreset : i = .reset
  · subst hreset
    exact exec_reset_gate h
  · exact (exec_next_gate_of_ne hcommit hreset h).trans hs

theorem runSteps_gate_safe (hcommit : .dispatchCommit ∉ is) (hs : s.gate = safeGates) (h : runSteps is s = .next t) :
    t.gate = safeGates :=
  runSteps_keeps (P := fun u => u.gate = safeGates)
    (fun _ hi _ _ => exec_next_gate_safe (ne_of_mem_of_not_mem hi hcommit)) hs h

/-- Each instruction of a run that answers was enabled in a state with whatever property the run's instructions keep. -/
theorem exists_enabled_of_mem_runSteps {P : State → Prop}
    (hP : ∀ i ∈ is, ∀ s t, P s → exec i s = .next t → P t) (h0 : P s) (h : runSteps is s = .next t) (hj : j ∈ is) :
    ∃ u, P u ∧ Enabled j u := by
  induction is generalizing s with
  | nil => cases hj
  | cons i is ih =>
    obtain ⟨u, hu, h⟩ := runSteps_cons_next h
    obtain rfl | hj := List.mem_cons.mp hj
    · exact ⟨s, h0, u, hu⟩
    · exact ih (fun k hk => hP k (List.mem_cons_of_mem i hk)) (hP i List.mem_cons_self s u h0 hu) h hj

/-- No dispatch is in progress or due, in or out of reset, and a RELEASE makes none due: the core waits for an edge. -/
structure AwaitsEdge (s : State) : Prop where
  reactive : s.params.initialDispatch = false
  pend : s.pend = false
  phase : s.phase = .idle

/-- Only an edge ends the wait: the Dispatcher's steps have nothing to do in it, and RESET and RELEASE leave IDLE with
nothing pending. -/
theorem AwaitsEdge.of_exec (hw : AwaitsEdge s) (hedge : ∀ v, i ≠ .edge v) (h : exec i s = .next t) : AwaitsEdge t := by
  obtain ⟨-, rfl⟩ | ⟨v, hi, -⟩ | ⟨-, -, hpend, -⟩ | ⟨-, -, hphase, -⟩ | ⟨-, rfl⟩ | ⟨-, rfl⟩ | ⟨-, -, rfl⟩ :=
    exec_next_cases h
  · exact ⟨hw.reactive, hw.pend, hw.phase⟩
  · exact absurd hi (hedge v)
  · cases hw.pend.symm.trans hpend
  · cases hw.phase.symm.trans hphase
  · exact ⟨hw.reactive, hw.pend, hw.phase⟩
  · exact ⟨hw.reactive, rfl, rfl⟩
  · exact ⟨hw.reactive, hw.reactive, hw.phase⟩

/-- A run with no edge has no commit when it starts from a core that waits for one. -/
theorem AwaitsEdge.dispatchCommit_notMem (hw : AwaitsEdge s) (hedge : ∀ v, .edge v ∉ is)
    (h : runSteps is s = .next t) : .dispatchCommit ∉ is := fun hj => by
  obtain ⟨u, hu, he⟩ := exists_enabled_of_mem_runSteps
    (fun i hi _ _ hs => hs.of_exec fun v hv => hedge v (hv ▸ hi)) hw h hj
  exact not_enabled_dispatchCommit_of_idle hu.phase he

/-- Settles O54: RELEASE keeps the SAFE lines and the IDLE phase of reset. Then SAFE stays by `runSteps_gate_safe`; with
INITIAL_DISPATCH false the released core awaits an edge; with it true the dispatch is `afterDispatch` on its lines. -/
theorem linesHoldSafeUntilTheFirstCommit : Obligations.LinesHoldSafeUntilTheFirstCommit := by
  unfold Obligations.LinesHoldSafeUntilTheFirstCommit
  intro p s t hs hrelease
  obtain ⟨hr, rfl⟩ := exec_release_next hrelease
  obtain ⟨hgate, -, hidle, -⟩ := hs.inv.heldInReset hr
  have hpend : (releaseReset s).pend = p.initialDispatch := by rw [releaseReset_pend, hs.params_eq]
  refine ⟨fun is u hu => ⟨fun hcommit => runSteps_gate_safe (s := releaseReset s) hcommit hgate hu,
    fun hd hedge => ?_⟩, fun hd => ?_⟩
  · have hwait : AwaitsEdge (releaseReset s) := ⟨hpend.trans hd, hpend.trans hd, hidle⟩
    exact hwait.dispatchCommit_notMem hedge hu
  · refine ⟨_, _, exec_dispatchSample_of_guard rfl (hpend.trans hd) hidle, exec_dispatchCommit_enterDispatch rfl, ?_⟩
    rw [afterDispatch_gate, releaseReset_params, hs.params_eq, pack_eq]

end Sys2Proof.Machine
end

section
/-! PROOFS. Complementary swaps (R109, R168): between two states with the invariant they are a matter of two rows. -/

namespace Sys2Proof.Machine

variable {i : Instr} {s t : State}

/-- Under the invariant the lines carry the row of the diagnostic index (R37, R38). -/
theorem Inv.gate_eq (h : Inv s) : s.gate = encodeGates (tableRow s.params.commTable s.diagIndex) := by
  rw [h.lines, h.pair]

/-- The lines that the default table drives at an index. -/
def defaultGates (j : PosIndex) : Gates := encodeGates (tableRow defaultTable j)

/-- Before and after an instruction the default table's rows are on the lines. -/
theorem Inv.gates_of_exec (h : Inv s) (htable : s.params.commTable = defaultTable) (hx : exec i s = .next t) :
    s.gate = defaultGates s.diagIndex ∧ t.gate = defaultGates t.diagIndex := by
  rw [h.gate_eq, (h.of_exec hx).gate_eq, exec_next_params hx, htable]
  exact ⟨rfl, rfl⟩

/-- R168 on the 64 pairs of indices. -/
theorem swapsComplements_defaultGates_iff (j k : PosIndex) :
    swapsComplements (defaultGates j) (defaultGates k) = true ↔
      isValidIndex j = true ∧ isValidIndex k = true ∧ 2 ≤ linesChanged j k := by
  revert j k; decide

/-- Settles O53: `Inv.gates_of_exec` leaves the default table's rows to compare, which are
`swapsComplements_defaultGates_iff` and, from index 1, rows 1, 2 and 6; the counts run over the pairs of indices. -/
theorem complementarySwapsNeedTwoLineChanges : Obligations.ComplementarySwapsNeedTwoLineChanges := by
  unfold Obligations.ComplementarySwapsNeedTwoLineChanges
  refine ⟨fun s t hinv htable hx => ?_, by decide, by decide, fun s t hinv htable hindex hx => ?_⟩
  · obtain ⟨hs, ht⟩ := hinv.gates_of_exec htable hx
    rw [hs, ht]
    exact swapsComplements_defaultGates_iff s.diagIndex t.diagIndex
  · obtain ⟨hs, ht⟩ := hinv.gates_of_exec htable hx
    rw [hs, ht, hindex]
    refine ⟨fun h2 => ?_, fun h6 => ?_⟩
    · rw [h2]; decide
    · rw [h6]; decide

end Sys2Proof.Machine
end

section
/-! PROOFS. The decoder of script bytes (R79, log 2): a byte decodes to an instruction exactly when its selector is the
instruction's, its three bits match the row, and EDGE's operand is those bits. Both directions of "decode and encode agree"
are read off this. -/

namespace Sys2Proof

variable {b : Byte} {bits : BitVec 3} {rest rest' : List Byte} {i j : Instr}

/-- A row of the control format decodes to itself or to nothing. -/
theorem decodeRow_eq_instr_iff : decodeRow j bits rest = .instr i rest' ↔ j.row.accepts bits = true ∧ j = i ∧ rest = rest' := by
  unfold decodeRow
  split
  case isTrue hrow => simp [hrow]
  case isFalse hrow => simp [hrow]

/-- The LOOKUP row of an index has selector 0, accepts that index and is no EDGE (R79). -/
theorem lookupInstr_row (bits : BitVec 3) :
    selectorOf (lookupInstr bits) = 0#5 ∧ (lookupInstr bits).row.accepts bits = true ∧ ∀ v, lookupInstr bits ≠ .edge v := by
  revert bits; decide

/-- The byte's fields are those of an instruction's line: its selector, bits that its row accepts, and EDGE's operand. -/
structure FieldsMatch (b : Byte) (i : Instr) : Prop where
  selector : b.extractLsb' 3 5 = selectorOf i
  row : i.row.accepts (b.extractLsb' 0 3) = true
  operand : ∀ v, i = .edge v → b.extractLsb' 0 3 = v

/-- What decodes has the fields of its instruction. -/
theorem fieldsMatch_of_decode (h : decode (b :: rest) = .instr i rest') : rest' = rest ∧ FieldsMatch b i := by
  have selector_eq {n : BitVec 5} (hn : (b.extractLsb' 3 5).toNat = n.toNat) : b.extractLsb' 3 5 = n :=
    BitVec.eq_of_toNat_eq hn
  simp only [decode] at h
  split at h
  case h_1 hn =>
    obtain ⟨rfl, rfl⟩ := Decoded.instr.inj h
    obtain ⟨hsel, hrow, hedge⟩ := lookupInstr_row (b.extractLsb' 0 3)
    exact ⟨rfl, (selector_eq (n := 0#5) hn).trans hsel.symm, hrow, fun v hv => absurd hv (hedge v)⟩
  case h_2 hn =>
    obtain ⟨hrow, rfl, rfl⟩ := decodeRow_eq_instr_iff.mp h
    exact ⟨rfl, selector_eq (n := 1#5) hn, hrow, fun _ => Instr.edge.inj⟩
  case h_8 => cases h
  all_goals
    obtain ⟨hrow, rfl, rfl⟩ := decodeRow_eq_instr_iff.mp h
    exact ⟨rfl, selector_eq ‹_›, hrow, nofun⟩

/-- The mask of an index row is all ones: the bits it accepts are its match. -/
theorem lookupInstr_of_accepts (hi : i.row.format = .index) (h : i.row.accepts bits = true) : lookupInstr bits = i := by
  have hpat : i.row.mask = 0b111#3 ∧ lookupInstr i.row.pat = i := by
    cases i with
    | edge | dispatchSample | dispatchCommit | snapshot | reset | release => cases hi
    | _ => exact ⟨rfl, rfl⟩
  obtain ⟨hmask, hlookup⟩ := hpat
  have hbits : bits &&& 0b111#3 = bits := BitVec.and_allOnes
  rw [OpRow.accepts, hmask, hbits] at h
  rw [of_decide_eq_true h, hlookup]

/-- A byte with the fields of an instruction decodes to it. -/
theorem FieldsMatch.decode_eq (h : FieldsMatch b i) (rest : List Byte) : decode (b :: rest) = .instr i rest := by
  obtain ⟨hsel, hrow, hedge⟩ := h
  cases i with
  | edge v =>
    obtain rfl := hedge v rfl
    simp only [decode, hsel, selectorOf]
    exact if_pos hrow
  | dispatchSample | dispatchCommit | snapshot | reset | release =>
    simp only [decode, hsel, selectorOf]
    exact if_pos hrow
  | _ =>
    simp only [decode, hsel, selectorOf]
    exact congrArg (Decoded.instr · rest) (lookupInstr_of_accepts rfl hrow)

/-- The encoder writes the fields (`Laws.WordMatchesRow`). -/
theorem fieldsMatch_encodeByte (i : Instr) : FieldsMatch (encodeByte i) i := by
  have hword : Laws.WordMatchesRow.Statement i := by
    open Laws.WordMatchesRow in
    cases i
    exacts [lookup0, lookup1, lookup2, lookup3, lookup4, lookup5, lookup6, lookup7, edge _, dispatchSample,
      dispatchCommit, snapshot, reset, release]
  obtain ⟨hrow, hsel⟩ := hword
  refine ⟨hsel, hrow, ?_⟩
  rintro v rfl
  exact BitVec.extractLsb'_append_eq_right

theorem decode_encode (i : Instr) (rest : List Byte) : decode (encode i ++ rest) = .instr i rest :=
  (fieldsMatch_encodeByte i).decode_eq rest

/-- A byte is its selector and its three bits. -/
theorem byte_eq_of_fields {c : Byte} (hsel : b.extractLsb' 3 5 = c.extractLsb' 3 5)
    (hbits : b.extractLsb' 0 3 = c.extractLsb' 0 3) : b = c := by
  have fields (x : Byte) : x.extractLsb' 3 5 ++ x.extractLsb' 0 3 = x :=
    (BitVec.extractLsb'_append_extractLsb'_eq_extractLsb' rfl).trans BitVec.extractLsb'_eq_self
  rw [← fields b, hsel, hbits, fields c]

/-- The selector is what is above the three bits. -/
theorem shiftRight_eq_of_selector {c : Byte} (hsel : b.extractLsb' 3 5 = c.extractLsb' 3 5) : b >>> 3 = c >>> 3 := by
  have hlt : 3 < 8 := by decide
  have hhigh : b.extractLsb' 3 (8 - 3) = c.extractLsb' 3 (8 - 3) := hsel
  rw [BitVec.ushiftRight_eq_extractLsb'_of_lt hlt, BitVec.ushiftRight_eq_extractLsb'_of_lt hlt, hhigh]

/-- Two bytes with the fields of one instruction agree on the selector and on the row's mask; for EDGE they are one byte. -/
theorem FieldsMatch.agree {c : Byte} (hb : FieldsMatch b i) (hc : FieldsMatch c i) :
    b >>> 3 = c >>> 3 ∧ b.extractLsb' 0 3 &&& i.row.mask = c.extractLsb' 0 3 &&& i.row.mask ∧
      ∀ v, i = .edge v → b = c := by
  have hsel : b.extractLsb' 3 5 = c.extractLsb' 3 5 := hb.selector.trans hc.selector.symm
  refine ⟨shiftRight_eq_of_selector hsel, (of_decide_eq_true hb.row).trans (of_decide_eq_true hc.row).symm, fun v hv => ?_⟩
  exact byte_eq_of_fields hsel ((hb.operand v hv).trans (hc.operand v hv).symm)

/-- Settles O23: what the encoder writes has the fields of its instruction, and so decodes to it; what decodes has them too,
and agrees with the encoder's byte. -/
theorem decodeAndEncodeAgree : Obligations.DecodeAndEncodeAgree := by
  unfold Obligations.DecodeAndEncodeAgree
  refine ⟨fun i rest _ => decode_encode i rest, fun b rest i rest' h => ?_⟩
  obtain ⟨hrest, hfields⟩ := fieldsMatch_of_decode h
  exact ⟨hrest, hfields.agree (fieldsMatch_encodeByte i)⟩

end Sys2Proof
end

section
/-! PROOFS. The machine's step (R77, R139, log 3): its forms, and what follows for the invariant, the parameters and
the reachable states, each by `step_next_cases` from the fact about instructions. -/

namespace Sys2Proof.Machine

variable {i : Instr} {s t : State} {p : Params}

/-! ### The forms of a step -/

theorem step_of_not_wf (hwf : ¬s.params.wf = true) : step s = .refused .configurationRefused := if_neg hwf

theorem step_of_noLine (hwf : s.params.wf = true) (hs : s.script = []) : step s = exec (drawStep s) (afterDraw s) := by
  rw [step, if_pos hwf]
  split
  case h_1 => rfl
  case h_2 hcons => cases hs.symm.trans hcons

theorem step_of_instr {rest : List Byte} (hwf : s.params.wf = true) (hs : s.script ≠ [])
    (hd : nextLine s = .instr i rest) : step s = exec i (afterLine rest s) := by
  rw [step, if_pos hwf]
  split
  · contradiction
  · rw [hd]

theorem step_of_reject {e : DecodeError} (hwf : s.params.wf = true) (hs : s.script ≠ [])
    (hd : nextLine s = .reject e) : step s = .refused (.undecodableLine e) := by
  rw [step, if_pos hwf]
  split
  · contradiction
  · rw [hd]

/-- Settles O5: the launch refuses exactly what `Params.wf` does, and the step asks for the same. -/
theorem refusedConfigurationTakesNoStep : Obligations.RefusedConfigurationTakesNoStep := by
  unfold Obligations.RefusedConfigurationTakesNoStep
  intro s hall script hl
  refine step_of_not_wf fun hwf => ?_
  cases hl.symm.trans (launch_of_wf hwf)

/-- Settles O18, by `step_of_instr` and `step_of_reject`. -/
theorem stepRunsTheDecodedLine : Obligations.StepRunsTheDecodedLine := by
  unfold Obligations.StepRunsTheDecodedLine
  exact fun s hwf hs => ⟨fun _ _ hd => step_of_instr hwf hs hd, fun _ hd => step_of_reject hwf hs hd⟩

/-! ### What a step keeps -/

/-- Settles O36: an instruction by `Inv.of_exec`; the machine's step is one instruction on the state with its script and
counter moved on, which the invariant does not read. -/
theorem everyStepKeepsTheInvariant : Obligations.EveryStepKeepsTheInvariant := by
  unfold Obligations.EveryStepKeepsTheInvariant
  refine ⟨fun s t hinv hstep => ?_, fun i s t hinv hx => hinv.of_exec hx⟩
  obtain ⟨-, i, script, tick, hx⟩ := step_next_cases hstep
  exact (hinv.of_schedule script tick).of_exec hx

/-- Settles O31: `exec_next_params`, through the step. -/
theorem parametersNeverChange : Obligations.ParametersNeverChange := by
  unfold Obligations.ParametersNeverChange
  refine ⟨fun _ _ _ => exec_next_params, fun s t hstep => ?_⟩
  obtain ⟨-, i, script, tick, hx⟩ := step_next_cases hstep
  exact exec_next_params (s := { s with script := script, tick := tick }) hx

/-- Settles O37: the step is a move of the schedule and an instruction, and the reachable states are closed under both. -/
theorem stepStaysReachable : Obligations.StepStaysReachable := by
  unfold Obligations.StepStaysReachable
  intro p s t hs hstep
  obtain ⟨-, i, script, tick, hx⟩ := step_next_cases hstep
  exact (hs.schedule s script tick).exec i _ t hx

/-! ### The launch -/

theorem inv_reset : Inv State.reset := inv_launchState (p := Params.default) (by decide) 0#3 []

/-- Settles O1, by `inv_launchState`. -/
theorem resetAndLaunchMeetTheInvariant : Obligations.ResetAndLaunchMeetTheInvariant := by
  unfold Obligations.ResetAndLaunchMeetTheInvariant
  exact ⟨inv_reset, fun p hall script hp =>
    ⟨_, launch_of_wf hp, inv_launchState hp hall script, rfl, rfl, rfl⟩⟩

/-- Settles O3: what RESET answers (`exec_reset`), with its ResetOut the only record. -/
theorem launchStateIsWhatResetLeaves : Obligations.LaunchStateIsWhatResetLeaves := by
  unfold Obligations.LaunchStateIsWhatResetLeaves
  intro s hs
  rw [exec_reset, record, resetFields_history, outWrite_history, hs]
  rfl

end Sys2Proof.Machine
end

section
/-! PROOFS. The schedule (R71, R131, R135): the list it draws from, and that without a script line an enabled step fires. -/

namespace Sys2Proof.Machine

variable {i : Instr} {s t : State}

/-- Settles O20, step by step: the list's test for a step is the step's guard, and the LOOKUP rows are no steps. -/
theorem enabledStepsAreListedExactly : Obligations.EnabledStepsAreListedExactly := by
  unfold Obligations.EnabledStepsAreListedExactly
  intro s i
  cases i with
  | edge v => simp [enabledSteps, isStep, enabled_edge, edgeGuard_iff, mem_allLevels]
  | dispatchSample => simp [enabledSteps, isStep, enabled_dispatchSample, sampleGuard_iff]
  | dispatchCommit => simp [enabledSteps, isStep, enabled_dispatchCommit, commitGuard_iff]
  | release => simp [enabledSteps, isStep, enabled_release, releaseGuard_iff]
  | snapshot => simp [enabledSteps, isStep, enabled_snapshot]
  | reset => simp [enabledSteps, isStep, enabled_reset]
  | _ => simp [enabledSteps, isStep]

/-- Settles O19: the draw is one of the listed steps, hence enabled, and a free choice leaves all that a guard reads. -/
theorem stepWithoutScriptFiresAnEnabledStep : Obligations.StepWithoutScriptFiresAnEnabledStep := by
  unfold Obligations.StepWithoutScriptFiresAnEnabledStep
  intro s hwf hs
  obtain ⟨hstep, hen⟩ := (enabledStepsAreListedExactly s (drawStep s)).mp (drawStep_mem s)
  obtain ⟨t, ht⟩ : Enabled (drawStep s) (afterDraw s) :=
    (enabled_congr (s := s) (s' := afterDraw s) rfl rfl rfl rfl).mpr hen
  exact ⟨drawStep s, t, hstep, hen, ht, (step_of_noLine hwf hs).trans ht⟩

end Sys2Proof.Machine
end

section
/-! PROOFS. The opcode table's control rows (R71): the control vectors that a row accepts are those of its step's guard. -/

namespace Sys2Proof.Machine

variable {s : State}

/-- A row with mask 0 accepts every control vector. -/
theorem accepts_of_mask_zero {r : OpRow} (hmask : r.mask = 0#3) (hpat : r.pat = 0#3) (c : Ctl) : r.accepts c = true := by
  rw [OpRow.accepts, hmask, hpat]
  exact decide_eq_true BitVec.and_zero

theorem accepts_dispatchSample_iff : Instr.dispatchSample.row.accepts (ctl s) = true ↔ Enabled .dispatchSample s := by
  have accepts_iff : ∀ c : Ctl, Instr.dispatchSample.row.accepts c = true ↔ c = 0b010#3 := by decide
  rw [accepts_iff, enabled_dispatchSample_iff_ctl]

theorem accepts_dispatchCommit_iff : Instr.dispatchCommit.row.accepts (ctl s) = true ↔ Enabled .dispatchCommit s := by
  have accepts_iff : ∀ c : Ctl, Instr.dispatchCommit.row.accepts c = true ↔ c = 0b001#3 ∨ c = 0b011#3 := by decide
  rw [accepts_iff, enabled_dispatchCommit_iff_ctl]

theorem accepts_release_iff : Instr.release.row.accepts (ctl s) = true ↔ Enabled .release s := by
  have accepts_iff : ∀ c : Ctl, Instr.release.row.accepts c = true ↔
      c = 0b100#3 ∨ c = 0b101#3 ∨ c = 0b110#3 ∨ c = 0b111#3 := by decide
  rw [accepts_iff, enabled_release_iff_ctl]

/-- Settles O22, row by row: a row with mask 0 accepts every vector, and each other row those that enable its step. -/
theorem opcodeRowsAreTheGuards : Obligations.OpcodeRowsAreTheGuards := by
  unfold Obligations.OpcodeRowsAreTheGuards
  intro i s hi
  cases i with
  | edge v => exact ⟨fun _ => accepts_of_mask_zero rfl rfl _, fun hne => absurd rfl (hne v)⟩
  | snapshot => exact ⟨fun _ => accepts_of_mask_zero rfl rfl _, fun _ _ => enabled_snapshot⟩
  | reset => exact ⟨fun _ => accepts_of_mask_zero rfl rfl _, fun _ _ => enabled_reset⟩
  | dispatchSample => exact ⟨accepts_dispatchSample_iff.mpr, fun _ => accepts_dispatchSample_iff.mp⟩
  | dispatchCommit => exact ⟨accepts_dispatchCommit_iff.mpr, fun _ => accepts_dispatchCommit_iff.mp⟩
  | release => exact ⟨accepts_release_iff.mpr, fun _ => accepts_release_iff.mp⟩
  | _ => cases hi

end Sys2Proof.Machine
end

section
/-! PROOFS. Instructions as functions: an instruction that is enabled leaves `effect`, whatever the state, and whether it is
enabled rests on the control bits and the lines. So two states that agree there take an instruction alike, and what they may
differ in is read off `effect`. -/

namespace Sys2Proof.Machine

variable {i : Instr} {s s' t : State}

/-- The state an instruction leaves where it is enabled. -/
def effect : Instr → State → State
  | .edge v, s => noteEdge { s with hallIn := v }
  | .dispatchSample, s => enterDispatch s.hallIn s
  | .dispatchCommit, s => commitIndex s.idxLatch s
  | .snapshot, s => answer (.word (diagRead s)) (record [.snap (diagRead s)] s)
  | .reset, s => record [.resetOut safeGates] (resetFields (outWrite safeGates s))
  | .release, s => releaseReset s
  | i, s => returnRow i.row.pat s

theorem exec_next_eq_effect (h : exec i s = .next t) : t = effect i s := by
  cases i with
  | edge v => obtain ⟨-, ht⟩ := exec_edge_next h; exact ht
  | dispatchSample => obtain ⟨-, -, -, ht⟩ := exec_dispatchSample_next h; exact ht
  | dispatchCommit => obtain ⟨-, -, ht⟩ := exec_dispatchCommit_next h; exact ht
  | snapshot => exact exec_snapshot_next h
  | reset => exact exec_reset_next h
  | release => obtain ⟨-, ht⟩ := exec_release_next h; exact ht
  | _ => exact exec_lookup_next rfl h

theorem exec_of_enabled (h : Enabled i s) : exec i s = .next (effect i s) := by
  obtain ⟨t, ht⟩ := h
  rw [ht, exec_next_eq_effect ht]

/-- Two states take instructions alike: they agree on the control bits and the lines. -/
structure SameGuards (s s' : State) : Prop where
  inReset : s'.inReset = s.inReset
  pend : s'.pend = s.pend
  phase : s'.phase = s.phase
  hallIn : s'.hallIn = s.hallIn

theorem SameGuards.enabled_iff (h : SameGuards s s') : Enabled i s' ↔ Enabled i s :=
  enabled_congr h.inReset h.pend h.phase h.hallIn

theorem SameGuards.exec_next (h : SameGuards s s') (hx : exec i s = .next t) : exec i s' = .next (effect i s') :=
  exec_of_enabled (h.enabled_iff.mpr ⟨t, hx⟩)

theorem SameGuards.exec_refused (h : SameGuards s s') {r : Refusal} (hx : exec i s = .refused r) :
    exec i s' = .refused r := by
  have hnot : ¬Enabled i s := fun ⟨t, ht⟩ => nomatch hx.symm.trans ht
  rw [exec_refused_of_not_enabled (mt h.enabled_iff.mp hnot), ← exec_refused_of_not_enabled hnot, hx]

/-! ### The diagnostic pair, the history and the returned value (10_state.md section 6) -/

/-- A state with another diagnostic pair, history and returned value. -/
def withDiagnostics (di : PosIndex) (dp : Pattern) (h : List Event) (x : Option Returned) (s : State) : State :=
  { s with diagIndex := di, diagPattern := dp, history := h, returned := x }

theorem effect_withDiagnostics (i : Instr) (s : State) (di : PosIndex) (dp : Pattern) (h : List Event)
    (x : Option Returned) :
    withDiagnostics (effect i s).diagIndex (effect i s).diagPattern (effect i s).history (effect i s).returned
      (effect i (withDiagnostics di dp h x s)) = effect i s := by
  cases i with
  | edge v => cases hr : s.inReset <;> simp [effect, noteEdge, withDiagnostics, hr]
  | _ => rfl

/-- Settles O33: no guard reads the four fields, and `effect` carries none of them into another. -/
theorem diagnosticsDoNotReachTheOutputs : Obligations.DiagnosticsDoNotReachTheOutputs := by
  unfold Obligations.DiagnosticsDoNotReachTheOutputs
  intro i s di dp h x
  have hsame : SameGuards s (withDiagnostics di dp h x s) := ⟨rfl, rfl, rfl, rfl⟩
  refine ⟨fun t ht => ⟨_, hsame.exec_next ht, ?_⟩, fun r hr => hsame.exec_refused hr⟩
  obtain rfl := exec_next_eq_effect ht
  exact effect_withDiagnostics i s di dp h x

/-! ### PIN_MAP (30_encoding.md section 3) -/

/-- A state on a board with another PIN_MAP. -/
def withPinMap (m : Option PinMap) (s : State) : State := { s with params := { s.params with pinMap := m } }

theorem effect_withPinMap (i : Instr) (s : State) (m : Option PinMap) :
    effect i (withPinMap m s) = withPinMap m (effect i s) := by
  cases i with
  | edge v => cases hr : s.inReset <;> simp [effect, noteEdge, withPinMap, hr]
  | _ => rfl

/-- Settles O34: no guard reads PIN_MAP, and `effect` commutes with changing it. -/
theorem pinMapHasNoEffect : Obligations.PinMapHasNoEffect := by
  unfold Obligations.PinMapHasNoEffect
  intro i s m
  have hsame : SameGuards s (withPinMap m s) := ⟨rfl, rfl, rfl, rfl⟩
  refine ⟨fun t ht => (hsame.exec_next ht).trans ?_, fun r hr => hsame.exec_refused hr⟩
  rw [exec_next_eq_effect ht, effect_withPinMap]
  rfl

/-! ### SNAPSHOT beside a DISP step (60_exceptions.md section 2) -/

/-- Settles O56: SNAPSHOT leaves what the guards read, and a DISP step reads neither the history nor the returned value, so
the two effects commute but for what SNAPSHOT records and returns. -/
theorem snapshotCommutesWithDispatch : Obligations.SnapshotCommutesWithDispatch := by
  unfold Obligations.SnapshotCommutesWithDispatch
  intro i s t hi ht
  have hsame : SameGuards s (effect .snapshot s) := ⟨rfl, rfl, rfl, rfl⟩
  refine ⟨_, _, _, exec_of_enabled enabled_snapshot, hsame.exec_next ht, exec_of_enabled enabled_snapshot, ?_⟩
  obtain rfl := exec_next_eq_effect ht
  obtain rfl | rfl := hi <;> rfl

end Sys2Proof.Machine
end

section
/-! PROOFS. Scripts as bytes (R77, R78, logs 2 and 3): no instruction reads the script, and an instruction's byte in front of
it makes the step that instruction, so the bytes of a list of instructions run as the list. -/

namespace Sys2Proof.Machine

variable {i : Instr} {s t : State}

theorem sameGuards_afterLine (bs : List Byte) (s : State) : SameGuards s (afterLine bs s) := ⟨rfl, rfl, rfl, rfl⟩

theorem effect_afterLine (i : Instr) (s : State) (bs : List Byte) :
    effect i (afterLine bs s) = afterLine bs (effect i s) := by
  cases i with
  | edge v => cases hr : s.inReset <;> simp [effect, noteEdge, afterLine, hr]
  | _ => rfl

theorem exec_afterLine_next (bs : List Byte) (h : exec i s = .next t) :
    exec i (afterLine bs s) = .next (afterLine bs t) := by
  rw [(sameGuards_afterLine bs s).exec_next h, effect_afterLine, exec_next_eq_effect h]

theorem exec_afterLine_refused (bs : List Byte) {r : Refusal} (h : exec i s = .refused r) :
    exec i (afterLine bs s) = .refused r :=
  (sameGuards_afterLine bs s).exec_refused h

theorem runSteps_cons_of_refused {is : List Instr} {r : Refusal} (h : exec i s = .refused r) :
    runSteps (i :: is) s = .refused r := by
  rw [runSteps, h]

/-- With an instruction's byte in front, the step runs it on the bytes after it. -/
theorem step_afterLine_encode (i : Instr) (bs : List Byte) (hwf : s.params.wf = true) :
    step (afterLine (encode i ++ bs) s) = exec i (afterLine bs s) :=
  step_of_instr (s := afterLine (encode i ++ bs) s) hwf nofun (decode_encode i bs)

/-- The bytes of a list of instructions run as the instructions. -/
theorem run_afterLine_encodes (is : List Instr) (hwf : s.params.wf = true) :
    Sys2Proof.core.run is.length (afterLine (is.flatMap encode) s) = runSteps is (afterLine [] s) := by
  induction is generalizing s with
  | nil => rfl
  | cons i is ih =>
    rw [List.flatMap_cons, List.length_cons]
    obtain ⟨t, ht⟩ | hr := exec_next_or_refused i s
    · have hstep := (step_afterLine_encode i (is.flatMap encode) hwf).trans (exec_afterLine_next _ ht)
      have hwf' : t.params.wf = true := by rw [exec_next_params ht, hwf]
      rw [run_succ_of_next Sys2Proof.core hstep, runSteps_cons_of_next (exec_afterLine_next [] ht)]
      exact ih hwf'
    · have hstep := (step_afterLine_encode i (is.flatMap encode) hwf).trans (exec_afterLine_refused _ hr)
      exact (run_succ_of_refused Sys2Proof.core hstep).trans
        (runSteps_cons_of_refused (exec_afterLine_refused [] hr)).symm

/-- Settles O25: the assembled bytes are those of the expansion, and run as it (`run_afterLine_encodes`). -/
theorem scriptRunsAsItsExpansion : Obligations.ScriptRunsAsItsExpansion := by
  unfold Obligations.ScriptRunsAsItsExpansion
  intro ls s hwf hs
  have hself : afterLine (assemble ls) s = s := by rw [← hs]; rfl
  exact (congrArg (Sys2Proof.core.run (expandAll ls).length) hself).symm.trans
    (run_afterLine_encodes (expandAll ls) hwf)

end Sys2Proof.Machine
end

section
/-! PROOFS. The table reads (41_table.md) and the documented values of the default table (R90, R110). -/

namespace Sys2Proof.Machine

variable {i : Instr} {s : State}

/-- A LOOKUP row returns the table's row of its index (R87). -/
theorem exists_lookup_returned {tbl : CommTable} {q : Pattern} (htable : s.params.commTable = tbl)
    (hi : i.row.format = .index) (hrow : tableRow tbl i.row.pat = q) :
    ∃ t, exec i s = .next t ∧ t.returned = some (.pattern q) := by
  refine ⟨_, exec_lookup_of_index hi s, ?_⟩
  rw [returnRow, answer_returned, lookup_eq, htable, hrow]

/-- A commit under a table whose row of the latched index is known (R110). -/
theorem exists_commit_of_row {tbl : CommTable} {j : PosIndex} {q : Pattern} {g : Gates} (hrow : tableRow tbl j = q)
    (hgate : encodeGates q = g) :
    tableRow tbl j = q ∧ ∀ s : State, s.params.commTable = tbl → s.inReset = false → s.phase = .sampled →
      s.idxLatch = j → ∃ t, exec .dispatchCommit s = .next t ∧ t.diagPattern = q ∧ t.gate = g := by
  refine ⟨hrow, fun s htable hr hq hlatch => ⟨_, exec_dispatchCommit_of_guard hr hq, ?_, ?_⟩⟩
  · rw [commitIndex_diagPattern, hlatch, htable, hrow]
  · rw [commitIndex_gate, hlatch, htable, hrow, hgate]

/-- Settles O12: `exec_lookup_of_index` at each of the eight rows. -/
theorem lookupsReturnTheirRows : Obligations.LookupsReturnTheirRows := by
  unfold Obligations.LookupsReturnTheirRows
  exact fun s => ⟨exec_lookup_of_index rfl s, exec_lookup_of_index rfl s, exec_lookup_of_index rfl s,
    exec_lookup_of_index rfl s, exec_lookup_of_index rfl s, exec_lookup_of_index rfl s, exec_lookup_of_index rfl s,
    exec_lookup_of_index rfl s⟩

/-- Settles O13, by `exists_lookup_returned`: the documented patterns are the default table's rows, and a lawful table has
OFF in rows 0 and 7. -/
theorem lookupsReturnTheDocumentedPatterns : Obligations.LookupsReturnTheDocumentedPatterns := by
  unfold Obligations.LookupsReturnTheDocumentedPatterns
  simp only [List.forall_mem_cons]
  refine ⟨fun s htable => ?_, fun s hwf => ?_⟩
  · exact ⟨exists_lookup_returned htable rfl rfl, exists_lookup_returned htable rfl rfl,
      exists_lookup_returned htable rfl rfl, exists_lookup_returned htable rfl rfl,
      exists_lookup_returned htable rfl rfl, exists_lookup_returned htable rfl rfl,
      exists_lookup_returned htable rfl rfl, exists_lookup_returned htable rfl rfl, nofun⟩
  · exact ⟨exists_lookup_returned rfl rfl (Params.wf_row_zero hwf),
      exists_lookup_returned rfl rfl (Params.wf_row_seven hwf), nofun⟩

/-- Settles O14, by `exists_commit_of_row`: the documented values are the default table's rows and their encodings. -/
theorem defaultTableDrivesTheDocumentedGates : Obligations.DefaultTableDrivesTheDocumentedGates := by
  unfold Obligations.DefaultTableDrivesTheDocumentedGates
  simp only [List.forall_mem_cons]
  exact ⟨exists_commit_of_row rfl rfl, exists_commit_of_row rfl rfl, exists_commit_of_row rfl rfl,
    exists_commit_of_row rfl rfl, exists_commit_of_row rfl rfl, exists_commit_of_row rfl rfl,
    exists_commit_of_row rfl rfl, exists_commit_of_row rfl rfl, nofun⟩

/-- Settles O9, by the definition of SNAPSHOT: the word read from the port is the pair's. -/
theorem snapshotReturnsThePairWord : Obligations.SnapshotReturnsThePairWord := by
  unfold Obligations.SnapshotReturnsThePairWord
  exact fun _ => rfl

/-- Settles O24, by running the decoder on the words. -/
theorem sampleWordsDecode : Obligations.SampleWordsDecode := by
  unfold Obligations.SampleWordsDecode
  decide

end Sys2Proof.Machine
end

section
/-! PROOFS. What each instruction leaves unchanged (10_state.md section 1), read from the inversion lemmas of Laws/Exec and
the field lemmas of Laws/State. -/

namespace Sys2Proof.Machine

variable {i : Instr} {s t : State}

/-- Settles O27: a sample leaves `enterDispatch` of the lines, a commit `commitIndex` of the latched index. -/
theorem dispatcherStepsFrame : Obligations.DispatcherStepsFrame := by
  unfold Obligations.DispatcherStepsFrame
  refine ⟨fun s t h => ?_, fun s t h => ?_⟩
  · obtain ⟨-, -, -, rfl⟩ := exec_dispatchSample_next h
    simp
  · obtain ⟨-, -, rfl⟩ := exec_dispatchCommit_next h
    simp

/-- Settles O28: SNAPSHOT records and returns its word, a LOOKUP row returns its pattern, and neither does more. -/
theorem readingOperationsFrame : Obligations.ReadingOperationsFrame := by
  unfold Obligations.ReadingOperationsFrame
  rintro i s t (rfl | hindex) h
  · obtain rfl := exec_snapshot_next h
    simp
  · obtain rfl := exec_lookup_next hindex h
    simp [returnRow]

/-- Settles O29: RESET leaves its three updates, RELEASE leaves `releaseReset`. -/
theorem resetStepsFrame : Obligations.ResetStepsFrame := by
  unfold Obligations.ResetStepsFrame
  refine ⟨fun s t h => ?_, fun s t h => ?_⟩
  · obtain rfl := exec_reset_next h
    simp
  · obtain ⟨-, rfl⟩ := exec_release_next h
    simp

/-- Settles O30, over what an instruction can have done (`exec_next_cases`): in each case the fields that it is no writer of
are as they were. -/
theorem fieldsHaveOnlyTheirListedWriters : Obligations.FieldsHaveOnlyTheirListedWriters := by
  unfold Obligations.FieldsHaveOnlyTheirListedWriters
  intro i s t h
  obtain ⟨-, rfl⟩ | ⟨v, rfl, -, rfl⟩ | ⟨rfl, -, -, -, rfl⟩ | ⟨rfl, -, -, rfl⟩ | ⟨rfl, rfl⟩ | ⟨rfl, rfl⟩ |
    ⟨rfl, -, rfl⟩ := exec_next_cases h
  case inl => simp [returnRow]
  all_goals simp

end Sys2Proof.Machine
end

section
/-! PROOFS. What a dispatch in progress or due can meet (R122, R141, R153): only RESET ends either. -/

namespace Sys2Proof.Machine

variable {i : Instr} {s t : State}

/-- A commit stays enabled, with its latched index, until it or a RESET: no sample and no RELEASE is enabled beside it. -/
theorem sampled_persists (hr : s.inReset = false) (hq : s.phase = .sampled) (hreset : i ≠ .reset)
    (hcommit : i ≠ .dispatchCommit) (h : exec i s = .next t) :
    t.inReset = false ∧ t.phase = .sampled ∧ t.idxLatch = s.idxLatch ∧ i ≠ .dispatchSample := by
  obtain ⟨hi, rfl⟩ | ⟨v, rfl, -, rfl⟩ | ⟨-, -, -, hidle, -⟩ | ⟨hi, -⟩ | ⟨rfl, rfl⟩ | ⟨hi, -⟩ | ⟨-, hr', -⟩ :=
    exec_next_cases h
  · exact ⟨hr, hq, rfl, fun hs => nomatch hs ▸ hi⟩
  · simp [hr, hq]
  · cases hq.symm.trans hidle
  · exact absurd hi hcommit
  · exact ⟨hr, hq, rfl, nofun⟩
  · exact absurd hi hreset
  · cases hr.symm.trans hr'

/-- A sample stays enabled until it or a RESET: no commit and no RELEASE is enabled beside it, and an edge leaves pend set. -/
theorem enabled_dispatchSample_persists (he : Enabled .dispatchSample s) (hreset : i ≠ .reset)
    (hsample : i ≠ .dispatchSample) (h : exec i s = .next t) : Enabled .dispatchSample t := by
  rw [enabled_dispatchSample] at he ⊢
  obtain ⟨hr, hp, hq⟩ := he
  obtain ⟨-, rfl⟩ | ⟨v, -, -, rfl⟩ | ⟨hi, -⟩ | ⟨-, -, hsampled, -⟩ | ⟨-, rfl⟩ | ⟨hi, -⟩ | ⟨-, hr', -⟩ :=
    exec_next_cases h
  · exact ⟨hr, hp, hq⟩
  · simp [noteEdge_pend, hr, hq]
  · exact absurd hi hsample
  · cases hq.symm.trans hsampled
  · exact ⟨hr, hp, hq⟩
  · exact absurd hi hreset
  · cases hr.symm.trans hr'

theorem enabled_dispatchCommit_persists (he : Enabled .dispatchCommit s) (hreset : i ≠ .reset)
    (hcommit : i ≠ .dispatchCommit) (h : exec i s = .next t) : Enabled .dispatchCommit t := by
  obtain ⟨hr, hq⟩ := enabled_dispatchCommit.mp he
  obtain ⟨hr', hq', -⟩ := sampled_persists hr hq hreset hcommit h
  exact enabled_dispatchCommit.mpr ⟨hr', hq'⟩

/-- Settles O47, by `sampled_persists` and `enabled_dispatchSample_persists`. -/
theorem onlyResetDisturbsADispatch : Obligations.OnlyResetDisturbsADispatch := by
  unfold Obligations.OnlyResetDisturbsADispatch
  intro i s t h hreset
  refine ⟨fun hr hq hcommit => ?_, fun he hsample => enabled_dispatchSample_persists he hreset hsample h⟩
  obtain ⟨hr', hq', hlatch, hsample⟩ := sampled_persists hr hq hreset hcommit h
  exact ⟨hq', hlatch, hsample, enabled_dispatchCommit.mpr ⟨hr', hq'⟩⟩

/-! ### RESET over everything (R141, R156) -/

/-- In reset, with the outputs and the history as RESET left them. -/
structure HeldInReset (h : List Event) (s : State) : Prop where
  inReset : s.inReset = true
  pend : s.pend = false
  gate : s.gate = safeGates
  history : s.history = h

theorem HeldInReset.of_edge {h : List Event} {v : HallLevels} (hs : HeldInReset h s) (hx : exec (.edge v) s = .next t) :
    HeldInReset h t := by
  obtain ⟨-, rfl⟩ := exec_edge_next hx
  rw [noteEdge_of_inReset (s := { s with hallIn := v }) hs.inReset]
  exact ⟨hs.inReset, hs.pend, hs.gate, hs.history⟩

/-- Settles O55: RESET leaves the core held in reset, every edge keeps it so, and the DISP guards ask for in_reset = 0. -/
theorem resetAbandonsEverything : Obligations.ResetAbandonsEverything := by
  unfold Obligations.ResetAbandonsEverything
  intro s vs u
  refine ⟨_, exec_reset s, rfl, fun hrun => ?_⟩
  have hheld : HeldInReset (s.history ++ [.resetOut safeGates]) u := by
    refine runSteps_keeps (fun i hi a b ha hx => ?_) ⟨rfl, rfl, rfl, rfl⟩ hrun
    obtain ⟨v, -, rfl⟩ := List.mem_map.mp hi
    exact ha.of_edge hx
  exact ⟨hheld.pend, hheld.gate, hheld.history, not_enabled_dispatchSample_of_inReset hheld.inReset,
    not_enabled_dispatchCommit_of_inReset hheld.inReset⟩

end Sys2Proof.Machine
end

section
/-! PROOFS. What a history tells (R56, R57, R106, 20_memory.md section 5): the readings of a history, over a record appended
to it, and the invariant that they tell the lines and the pair. -/

namespace Sys2Proof.Machine

variable {i : Instr} {s t : State} {p : Params}

@[simp] theorem lastGate_append_commit_hook (h : List Event) (j k : PosIndex) (q r : Pattern) (g : Gates) :
    lastGate (h ++ [.commit j q g, .hook k r]) = some g := by
  rw [lastGate, List.foldl_append]; rfl

@[simp] theorem lastGate_append_resetOut (h : List Event) (g : Gates) : lastGate (h ++ [.resetOut g]) = some g := by
  rw [lastGate, List.foldl_append]; rfl

@[simp] theorem lastGate_append_snap (h : List Event) (w : SnapWord) : lastGate (h ++ [.snap w]) = lastGate h := by
  rw [lastGate, List.foldl_append]; rfl

@[simp] theorem lastPair_append_commit_hook (h : List Event) (j k : PosIndex) (q r : Pattern) (g : Gates) :
    lastPair (h ++ [.commit j q g, .hook k r]) = some (j, q) := by
  rw [lastPair, List.foldl_append]; rfl

@[simp] theorem lastPair_append_resetOut (h : List Event) (g : Gates) :
    lastPair (h ++ [.resetOut g]) = some (0#3, 0#6) := by
  rw [lastPair, List.foldl_append]; rfl

@[simp] theorem lastPair_append_snap (h : List Event) (w : SnapWord) : lastPair (h ++ [.snap w]) = lastPair h := by
  rw [lastPair, List.foldl_append]; rfl

/-- Consistency is record by record, a Commit and its Hook counting as one, so what follows a consistent history is judged by
itself. -/
theorem historyOk_append {tbl : CommTable} {a : List Event} (ha : historyOk tbl a = true) (b : List Event) :
    historyOk tbl (a ++ b) = historyOk tbl b := by
  induction a using historyOk.induct with
  | case1 => rfl
  | case2 j q g k r rest ih =>
    simp only [historyOk, Bool.and_eq_true, decide_eq_true_eq] at ha
    obtain ⟨⟨⟨⟨hq, hg⟩, hk⟩, hr⟩, hrest⟩ := ha
    simp [historyOk, hq, hg, hk, hr, ih hrest]
  | case3 => simp [historyOk] at ha
  | case4 => simp [historyOk] at ha
  | case5 g rest ih =>
    simp only [historyOk, Bool.and_eq_true] at ha
    obtain ⟨hg, hrest⟩ := ha
    simp [historyOk, hg, ih hrest]
  | case6 w rest ih =>
    simp only [historyOk, Bool.and_eq_true] at ha
    obtain ⟨hw, hrest⟩ := ha
    simp [historyOk, hw, ih hrest]

/-- The history tells the lines and the pair, and its records are consistent with the table. -/
structure HistoryTells (s : State) : Prop where
  gate : lastGate s.history = some s.gate
  pair : lastPair s.history = some (s.diagIndex, s.diagPattern)
  ok : historyOk s.params.commTable s.history = true

theorem historyTells_launchState (p : Params) (hall : HallLevels) (script : List Byte) :
    HistoryTells (launchState p hall script) := ⟨rfl, rfl, rfl⟩

/-- A commit and RESET record what they write; SNAPSHOT records the pair, which the invariant makes a row; the other
instructions write and record nothing. -/
theorem HistoryTells.of_exec (h : HistoryTells s) (hinv : Inv s) (hx : exec i s = .next t) : HistoryTells t := by
  obtain ⟨hgate, hpair, hok⟩ := h
  obtain ⟨-, rfl⟩ | ⟨v, -, -, rfl⟩ | ⟨-, -, -, -, rfl⟩ | ⟨-, -, -, rfl⟩ | ⟨-, rfl⟩ | ⟨-, rfl⟩ | ⟨-, -, rfl⟩ :=
    exec_next_cases hx
  · exact ⟨hgate, hpair, hok⟩
  · exact ⟨by simpa using hgate, by simpa using hpair, by simpa using hok⟩
  · exact ⟨hgate, hpair, hok⟩
  · exact ⟨by simp, by simp, by simp [historyOk_append hok, historyOk]⟩
  · exact ⟨by simpa using hgate, by simpa using hpair, by simp [historyOk_append hok, historyOk, hinv.pair]⟩
  · exact ⟨by simp, by simp [off], by simp [historyOk_append hok, historyOk, safeGates]⟩
  · exact ⟨hgate, hpair, hok⟩

theorem Reachable.historyTells (h : Reachable p s) : HistoryTells s := by
  induction h with
  | launch hall script => exact historyTells_launchState p hall script
  | exec _ _ _ hs hx ih => exact ih.of_exec hs.inv hx
  | schedule _ _ _ _ ih => exact ⟨ih.gate, ih.pair, ih.ok⟩

/-- Settles O44, by `Reachable.historyTells`. -/
theorem historyTellsTheOutputs : Obligations.HistoryTellsTheOutputs := by
  unfold Obligations.HistoryTellsTheOutputs
  intro p s hs
  have htells := hs.historyTells
  exact ⟨htells.gate, htells.pair, hs.params_eq ▸ htells.ok⟩

end Sys2Proof.Machine
end

section
/-! PROOFS. The core's lines on a board (R68, log 9). -/

namespace Sys2Proof.Machine

variable {m : PinMap}

theorem mem_allLines (l : Line) : l ∈ allLines := by
  obtain x | w := l
  · cases x <;> decide
  · cases w <;> decide

/-- With no shared pin, a pin is of one line. -/
theorem pinOf_injective (hm : m.injective = true) {k l : Line} (h : pinOf m k = pinOf m l) : k = l := by
  have hnodup : (allLines.map (pinOf m)).Nodup := of_decide_eq_true hm
  exact List.inj_on_of_nodup_map hnodup (mem_allLines k) (mem_allLines l) h

theorem pinMap_injective_of_wf {p : Params} (hwf : p.wf = true) (hp : p.pinMap = some m) : m.injective = true := by
  simp only [Params.wf, Bool.and_eq_true, hp, Option.all_some] at hwf
  exact hwf.2

/-- Settles O58: the board lists the nine lines by pin and level, and a pin is of one line (`pinOf_injective`). -/
theorem eachPinCarriesItsLine : Obligations.EachPinCarriesItsLine := by
  unfold Obligations.EachPinCarriesItsLine
  intro s m hwf hpins
  refine ⟨allLines.map fun l => (pinOf m l, lineLevel s l), by rw [boardLevels, hpins]; rfl, rfl, fun l b => ?_⟩
  rw [List.mem_map]
  constructor
  · rintro ⟨k, -, hk⟩
    obtain ⟨hpin, rfl⟩ := Prod.mk.inj hk
    rw [pinOf_injective (pinMap_injective_of_wf hwf hpins) hpin]
  · rintro rfl
    exact ⟨l, mem_allLines l, rfl⟩

end Sys2Proof.Machine
end

section
/-! PROOFS. Progress under weak fairness (R131). With ENV and RST quiet, an enabled DISP step fires: a commit leaves IDLE, a
sample takes the pending edge, and nothing sets pend again, so the core becomes quiescent. What it then outputs is an
invariant of the quiet steps, which holds at the start where an edge is pending there. -/

namespace Sys2Proof.Machine

variable {i : Instr} {s t : State} {st : Nat → State} {lab : Nat → Instr} {n m : Nat}

/-! ### Quiet instructions -/

/-- An instruction that is neither an EDGE nor a RESET. -/
def Quiet (i : Instr) : Prop := i ≠ .reset ∧ ∀ v, i ≠ .edge v

/-- Out of reset a quiet instruction reads the core, samples or commits; RELEASE is not enabled. -/
theorem exec_quiet_cases (hi : Quiet i) (hr : s.inReset = false) (h : exec i s = .next t) :
    (∃ es x, t = { s with history := es, returned := x }) ∨
    (s.pend = true ∧ s.phase = .idle ∧ t = enterDispatch s.hallIn s) ∨
    (s.phase = .sampled ∧ t = commitIndex s.idxLatch s) := by
  obtain ⟨hreset, hedge⟩ := hi
  obtain ⟨-, rfl⟩ | ⟨v, hv, -⟩ | ⟨-, -, hp, hq, ht⟩ | ⟨-, -, hq, ht⟩ | ⟨-, rfl⟩ | ⟨hi, -⟩ | ⟨-, hr', -⟩ :=
    exec_next_cases h
  · exact .inl ⟨_, _, rfl⟩
  · exact absurd hv (hedge v)
  · exact .inr (.inl ⟨hp, hq, ht⟩)
  · exact .inr (.inr ⟨hq, ht⟩)
  · exact .inl ⟨_, _, rfl⟩
  · exact absurd hi hreset
  · cases hr.symm.trans hr'

/-- A quiet instruction leaves reset, the lines and the parameters. -/
theorem exec_quiet_keeps (hi : Quiet i) (hr : s.inReset = false) (h : exec i s = .next t) :
    t.inReset = false ∧ t.hallIn = s.hallIn ∧ t.params = s.params := by
  obtain ⟨es, x, rfl⟩ | ⟨-, -, rfl⟩ | ⟨-, rfl⟩ := exec_quiet_cases hi hr h <;> exact ⟨hr, rfl, rfl⟩

/-- A quiet instruction sets nothing pending. -/
theorem exec_quiet_pend (hi : Quiet i) (hr : s.inReset = false) (hp : s.pend = false) (h : exec i s = .next t) :
    t.pend = false := by
  obtain ⟨es, x, rfl⟩ | ⟨-, -, rfl⟩ | ⟨-, rfl⟩ := exec_quiet_cases hi hr h
  · exact hp
  · rfl
  · exact hp

/-- Quiescence is kept: no DISP step is enabled in it, and nothing makes one due. -/
theorem Quiescent.of_quiet (hs : Quiescent s) (hi : Quiet i) (h : exec i s = .next t) : Quiescent t := by
  obtain ⟨hr, hp, hq⟩ := hs
  obtain ⟨es, x, rfl⟩ | ⟨hp', -⟩ | ⟨hq', -⟩ := exec_quiet_cases hi hr h
  · exact ⟨hr, hp, hq⟩
  · cases hp.symm.trans hp'
  · cases hq.symm.trans hq'

/-- With no edge pending, a sample waiting for its commit has latched the lines, and in IDLE the output is that of the lines. -/
structure OutputsDue (s : State) : Prop where
  latch : s.pend = false → s.phase = .sampled → s.idxLatch = s.hallIn
  output : s.pend = false → s.phase = .idle →
    s.diagIndex = s.hallIn ∧ s.gate = encodeGates (tableRow s.params.commTable s.hallIn)

theorem outputsDue_of_pend (hp : s.pend = true) : OutputsDue s :=
  ⟨fun hp' => (nomatch hp.symm.trans hp'), fun hp' => nomatch hp.symm.trans hp'⟩

/-- A sample latches the lines; a commit with no edge pending outputs the latched index. -/
theorem OutputsDue.of_quiet (hs : OutputsDue s) (hi : Quiet i) (hr : s.inReset = false) (h : exec i s = .next t) :
    OutputsDue t := by
  obtain ⟨es, x, rfl⟩ | ⟨-, -, rfl⟩ | ⟨hq, rfl⟩ := exec_quiet_cases hi hr h
  · exact ⟨hs.latch, hs.output⟩
  · exact ⟨fun _ _ => rfl, nofun⟩
  · refine ⟨nofun, fun hp _ => ?_⟩
    have hlatch : s.idxLatch = s.hallIn := hs.latch hp hq
    exact ⟨hlatch, congrArg (fun j => encodeGates (tableRow s.params.commTable j)) hlatch⟩

/-! ### Fair runs -/

/-- A weakly fair run that is out of reset and quiet from a point on (R131). -/
structure FairQuietRun (st : Nat → State) (lab : Nat → Instr) (n : Nat) : Prop where
  run : IsRun st lab
  fair : WeaklyFair st lab
  quiet : ∀ m, n ≤ m → Quiet (lab m)
  outOfReset : ∀ m, n ≤ m → (st m).inReset = false

theorem fairQuietRun_of_quietFrom (hrun : IsRun st lab) (hfair : WeaklyFair st lab) (hquiet : QuietFrom lab n)
    (hr : (st n).inReset = false) : FairQuietRun st lab n := by
  refine ⟨hrun, hfair, hquiet, fun m hm => ?_⟩
  induction m, hm using Nat.le_induction with
  | base => exact hr
  | succ m hm ih =>
    obtain ⟨hr', -⟩ := exec_quiet_keeps (hquiet m hm) ih (hrun m)
    exact hr'

namespace FairQuietRun

theorem later (h : FairQuietRun st lab n) (hm : n ≤ m) : FairQuietRun st lab m :=
  ⟨h.run, h.fair, fun k hk => h.quiet k (hm.trans hk), fun k hk => h.outOfReset k (hm.trans hk)⟩

/-- What quiet instructions keep out of reset holds from any point of the run at which it holds. -/
theorem keeps (h : FairQuietRun st lab n) {P : State → Prop}
    (hP : ∀ i s t, Quiet i → s.inReset = false → P s → exec i s = .next t → P t) (h0 : P (st n)) :
    ∀ m, n ≤ m → P (st m) := by
  intro m hm
  induction m, hm using Nat.le_induction with
  | base => exact h0
  | succ m hm ih => exact hP _ _ _ (h.quiet m hm) (h.outOfReset m hm) ih (h.run m)

/-- A DISP step that only itself or a RESET ends fires. -/
theorem exists_fires (h : FairQuietRun st lab n) (hi : i = .dispatchSample ∨ i = .dispatchCommit)
    (he : Enabled i (st n)) : ∃ k, n ≤ k ∧ lab k = i := by
  by_contra hnever
  have enabled_persists {j : Instr} {a b : State} (ha : Enabled i a) (hreset : j ≠ .reset) (hne : j ≠ i)
      (hx : exec j a = .next b) : Enabled i b := by
    obtain rfl | rfl := hi
    · exact enabled_dispatchSample_persists ha hreset hne hx
    · exact enabled_dispatchCommit_persists ha hreset hne hx
  refine hnever (h.fair i hi n fun m hm => ?_)
  induction m, hm using Nat.le_induction with
  | base => exact he
  | succ m hm ih => exact enabled_persists ih (h.quiet m hm).1 (fun hk => hnever ⟨m, hm, hk⟩) (h.run m)

theorem exists_idle (h : FairQuietRun st lab n) : ∃ k, n ≤ k ∧ (st k).phase = .idle := by
  cases hq : (st n).phase with
  | idle => exact ⟨n, le_rfl, hq⟩
  | sampled =>
    obtain ⟨k, hk, hlab⟩ := h.exists_fires (.inr rfl) (enabled_dispatchCommit.mpr ⟨h.outOfReset n le_rfl, hq⟩)
    obtain ⟨-, -, hnext⟩ := exec_dispatchCommit_next (hlab ▸ h.run k)
    exact ⟨k + 1, Nat.le_succ_of_le hk, by rw [hnext, commitIndex_phase]⟩

/-- The pending edge is taken: the core reaches IDLE, and there the sample is enabled until it fires. -/
theorem exists_noPend (h : FairQuietRun st lab n) : ∃ k, n ≤ k ∧ (st k).pend = false := by
  obtain ⟨k, hk, hidle⟩ := h.exists_idle
  cases hp : (st k).pend with
  | false => exact ⟨k, hk, hp⟩
  | true =>
    obtain ⟨j, hj, hlab⟩ := (h.later hk).exists_fires (.inl rfl)
      (enabled_dispatchSample.mpr ⟨h.outOfReset k hk, hp, hidle⟩)
    obtain ⟨-, -, -, hnext⟩ := exec_dispatchSample_next (hlab ▸ h.run j)
    exact ⟨j + 1, Nat.le_succ_of_le (hk.trans hj), by rw [hnext, enterDispatch_pend]⟩

/-- With nothing pending, the core reaches IDLE and nothing is pending there either. -/
theorem exists_quiescent (h : FairQuietRun st lab n) : ∃ m, n ≤ m ∧ Quiescent (st m) := by
  obtain ⟨k, hk, hp⟩ := h.exists_noPend
  obtain ⟨m, hm, hidle⟩ := (h.later hk).exists_idle
  have hpm : (st m).pend = false := (h.later hk).keeps (P := fun s => s.pend = false)
    (fun _ _ _ hi hr hp hx => exec_quiet_pend hi hr hp hx) hp m hm
  exact ⟨m, hk.trans hm, h.outOfReset m (hk.trans hm), hpm, hidle⟩

theorem hallIn_params_eq (h : FairQuietRun st lab n) (hm : n ≤ m) :
    (st m).hallIn = (st n).hallIn ∧ (st m).params = (st n).params := by
  refine h.keeps (P := fun s => s.hallIn = (st n).hallIn ∧ s.params = (st n).params) ?_ ⟨rfl, rfl⟩ m hm
  rintro i s t hi hr ⟨hhall0, hparams0⟩ hx
  obtain ⟨-, hhall, hparams⟩ := exec_quiet_keeps hi hr hx
  exact ⟨hhall.trans hhall0, hparams.trans hparams0⟩

end FairQuietRun

/-- Settles O57: the run becomes quiescent (`FairQuietRun.exists_quiescent`) and stays so, and with an edge pending at the
start `OutputsDue` holds throughout. -/
theorem fairRunsReachQuiescence : Obligations.FairRunsReachQuiescence := by
  unfold Obligations.FairRunsReachQuiescence
  intro st lab n hrun hfair hquiet hr
  have h := fairQuietRun_of_quietFrom hrun hfair hquiet hr
  obtain ⟨m, hm, hquiescent⟩ := h.exists_quiescent
  refine ⟨m, hm, fun k hk => ?_⟩
  have hstays : Quiescent (st k) :=
    (h.later hm).keeps (fun i s t hi _ hs hx => hs.of_quiet hi hx) hquiescent k hk
  obtain ⟨hlines, hparams⟩ := h.hallIn_params_eq (hm.trans hk)
  refine ⟨hstays, hlines, fun hp => ?_⟩
  have hdue : OutputsDue (st k) :=
    h.keeps (fun i s t hi hr hs hx => hs.of_quiet hi hr hx) (outputsDue_of_pend hp) k (hm.trans hk)
  obtain ⟨-, hnone, hidle⟩ := hstays
  rw [← hlines, ← hparams]
  exact hdue.output hnone hidle

end Sys2Proof.Machine
end
